-- ==== Sys2Proof/Word.lean ====
section
/-! DEFINITION. The word types of the VS2 block: bytes, 32-bit and 64-bit words (R6, R41).
What the manual counts, numbers or indexes (queues, partitions, names, epochs, counts) is a Nat;
what it treats as bits (tile bytes, CRCs, floating-point elements, packet words) is a bit vector. -/
namespace Sys2Proof

/-- One byte of a line, a tile or a record. -/
abbrev Byte := BitVec 8

/-- A 32-bit word: an FP32 element, a CRC-32C, the four check bytes of a line. -/
abbrev Word32 := BitVec 32

/-- A 64-bit word: a descriptor word, a packet word, a digest. -/
abbrev Word64 := BitVec 64

end Sys2Proof
end

