-- ==== Sys2Proof/Syntax.lean ====
section
/-! DEFINITION. The commands the block takes, one constructor per row of spec/opcode_table.json, with the data
they carry: tiles (R35), lines (R380), fabric packets (R319), DMP frames (R442) and PTP messages (R458). -/
namespace Sys2Proof

/-- Tile metadata (R35). `poison` has bit j for line j. -/
structure TileMeta where
  crc : Word32
  format : Nat
  transposed : Bool
  valid : Nat
  poison : Word64
  deriving DecidableEq, Repr

/-- A tile: 4,096 data bytes and the metadata beside them (R34, R35). -/
structure Tile where
  data : List Byte
  info : TileMeta
  deriving DecidableEq, Repr

/-- One line as stored or carried: 64 data bytes, and `mark`, the exclusive OR of the 4 check bytes it bears
(little-endian) with the RS(68,64) encoding of the data bytes (R380). 0 is a codeword; 0xA5C3_3C5A is poison (R381). -/
structure Line where
  bytes : List Byte
  mark : Word32
  deriving DecidableEq, Repr

/-- A fabric packet: the header of R319, field by field, and its payload lines. -/
structure Packet where
  level : Nat
  type : Nat
  combined : Bool
  whole : Bool
  partition : Nat
  src : Nat
  dst : Nat
  tag : Nat
  status : Nat
  address : Nat
  lines : Nat
  mapEpoch : Nat
  frag : Nat
  w4 : Word64
  w5 : Word64
  w6 : Word64
  seq : Nat
  hdrCrc : Word32
  payload : List Line
  deriving DecidableEq, Repr

/-- The two management ports (R442). -/
inductive MgPort where
  | mga
  | mgb
  deriving DecidableEq, Repr

/-- The two paths to the dictionary (R438): DMP, and the engine-port window. -/
inductive Path where
  | dmp
  | ep
  deriving DecidableEq, Repr

/-- A DMP request frame as it arrives on a management port (R442). Its TYPE is the command's own constructor. -/
structure DmpFrame where
  port : MgPort
  dst : Nat
  srcMac : Nat
  ethertype : Nat
  vlan : Option Nat
  version : Nat
  client : Nat
  seq : Nat
  index : Nat
  sub : Nat
  size : Nat
  last : Bool
  value : Nat
  data : List Byte
  deriving DecidableEq, Repr

/-- A PTP message's common part (R458): the port it came on, its domain, its sender's clock identity and its
sequence number; `time` is its origin, precise-origin or receive timestamp, in units of 2^-16 ns. -/
structure PtpMsg where
  port : MgPort
  domain : Nat
  source : Nat
  seq : Nat
  time : Nat
  deriving DecidableEq, Repr

/-- The fields of an Announce message that the best master clock selection compares, in its order, and the
master's announce interval in TREF cycles. -/
structure Announce where
  msg : PtpMsg
  priority1 : Nat
  clockClass : Nat
  accuracy : Nat
  variance : Nat
  priority2 : Nat
  grandmaster : Nat
  steps : Nat
  interval : Nat
  deriving DecidableEq, Repr

/-- Where a watchdog trip or a dual-rail error arose (R402): in a lane group, and which of the two it is, or at another node of the block,
named by its station code of R396. -/
inductive TripSite where
  | laneGroup (g : Nat) (dualRail : Bool)
  | elsewhere (station : Nat) (unit : Nat)
  deriving DecidableEq, Repr

/-- What drove the supply and temperature monitor (R406). -/
inductive Excursion where
  | vddLogic (nanovolts : Nat) (ns : Nat)
  | vddMem (nanovolts : Nat) (ns : Nat)
  | temperature (region : Nat) (eighths : Int)
  deriving DecidableEq, Repr

/-- The host's answer to an outbound tile (R354, R481). -/
inductive HostTake where
  | taken
  | held (cycles : Nat)
  deriving DecidableEq, Repr

/-- A port whose outputs the paced schedule releases (R351). -/
inductive PacePort where
  | ep
  | mp (p : Nat)
  | fp
  deriving DecidableEq, Repr

/-- A controller's answer to a transaction (R73, R75, R353): whether it is an error, the MP cycles for which readiness was withheld, and the cycles
from the transaction's scheduled issue to the response. -/
structure MpAnswer where
  err : Bool
  held : Nat
  cycles : Nat
  deriving DecidableEq, Repr

/-- An output that a port releases (R351, R353): its payload lines, and the ports whose lateness it depends on. -/
structure PortOutput where
  lines : Nat
  after : List PacePort
  deriving DecidableEq, Repr

/-- The instructions of the test access port (R480). -/
inductive TapOp where
  | bypass
  | sample
  | preload (cells : Nat)
  | extest
  | idcode
  | highz
  deriving DecidableEq, Repr

/-- An access to an IEEE 1687 instrument (R480): a read-only one, a write to a yard line, or a write to a setting. -/
inductive Instrument where
  | readRegion (r : Nat)
  | writeLine (slot : Nat) (line : Nat) (bytes : List Byte)
  | writeSetting (index : Nat) (sub : Nat) (value : Nat)
  deriving DecidableEq, Repr

/-- The owner of a segmented transfer (R446, R450): a DMP client, or the engine-port window. -/
inductive XferOwner where
  | client (c : Nat)
  | window
  deriving DecidableEq, Repr

/-- The commands of the block: one constructor per row of spec/opcode_table.json.

`sid` names an accepted stream by its acceptance number, `q` a queue or a partition, `path` the path a dictionary
write came by, `p` an arriving packet and `f` an arriving DMP frame. -/
inductive Instr where
  | descriptorFetch (q : Nat)
  | fenceRelease (sid : Nat)
  | completionRecord (q : Nat)
  | nop (sid : Nat)
  | stream (sid : Nat)
  | abort (sid : Nat)
  | homeBind (sid : Nat)
  | homeUnbind (sid : Nat)
  | move (sid : Nat)
  | homeRead (sid : Nat)
  | wbFlush (sid : Nat)
  | wbInvalidate (sid : Nat)
  | wbFlushInvalidate (sid : Nat)
  | hodOpen (sid : Nat)
  | hodPush (sid : Nat)
  | hodPushResume (sid : Nat)
  | hodPrefetchFill (stack : Nat)
  | hodPop (sid : Nat)
  | hodClose (sid : Nat)
  | hodStatsPush (sid : Nat)
  | hodStatsOrder (sid : Nat)
  | hodStatsRead (sid : Nat)
  | plbClose (sid : Nat)
  | sivMerge (sid : Nat)
  | sivGather (sid : Nat)
  | sivScatter (sid : Nat)
  | sivDispatch (sid : Nat)
  | sivReturn (sid : Nat)
  | trgOpen (sid : Nat)
  | trgAcc (sid : Nat)
  | trgRowAdd (sid : Nat)
  | trgDone (sid : Nat)
  | trgRead (sid : Nat)
  | trgClose (sid : Nat)
  | rdxReduce (sid : Nat)
  | rdxNormLocal (sid : Nat)
  | rdxGather (sid : Nat)
  | rdxNorm (sid : Nat)
  | trwLoadProgram (sid : Nat)
  | trwUpdate (sid : Nat)
  | mixSeal (sid : Nat)
  | mixSealDone (sid : Nat)
  | mixCommit (sid : Nat)
  | rptFetch (sid : Nat)
  | rptGradRepair (sid : Nat)
  | mixEncode (sid : Nat)
  | snpBegin (sid : Nat)
  | snpExport (sid : Nat)
  | snpLedger (sid : Nat)
  | snpEnd (sid : Nat)
  | snpRestoreBegin (sid : Nat)
  | snpRestore (sid : Nat)
  | snpRestoreEnd (sid : Nat)
  | writeDesc (q : Nat) (pos : Nat) (line : List Byte)
  | readCompl (q : Nat) (pos : Nat)
  | writeIndex (q : Nat) (consumer : Bool) (value : Nat)
  | qStateEnable (path : Path) (q : Nat)
  | qStateDisable (path : Path) (q : Nat)
  | queueDrained (q : Nat)
  | hmStateOn (path : Path) (q : Nat)
  | hmInitDone (q : Nat)
  | hmStateOff (path : Path) (q : Nat)
  | hmAdopt (path : Path) (q : Nat)
  | wytheStateOn (path : Path) (q : Nat)
  | wytheStateOff (path : Path) (q : Nat)
  | memberCmd (path : Path) (q : Nat) (record : List Byte)
  | rebuildBrick (q : Nat)
  | jobStart (path : Path) (q : Nat) (record : List Byte)
  | jobRejoin (path : Path) (q : Nat) (record : List Byte)
  | jobControlReady (path : Path) (q : Nat)
  | jobControlEnd (path : Path) (q : Nat)
  | fwImage (path : Path) (image : List Byte)
  | fwControl (path : Path)
  | fwCheckDone (uncorrectable : Bool)
  | selfTestDone (failedGroups : List Nat) (failedBankGroup : Option Nat)
  | masonBoot
  | lifeRecord (path : Path) (record : List Byte)
  | lifeShutdownPush (path : Path)
  | lifeShutdownMissing (path : Path)
  | lifePush
  | lifeGridSample
  | lifeLatencySample (station : Nat) (meanPs : Nat)
  | tbSet (path : Path) (value : List Byte)
  | tbAdjust (path : Path) (value : List Byte)
  | tppsEdge (cycles : Nat)
  | tppsMissed
  | sync (m : PtpMsg) (twoStep : Bool)
  | followUp (m : PtpMsg)
  | announce (a : Announce)
  | delayResp (m : PtpMsg)
  | delayReq
  | announceTimeout
  | evConsumer (path : Path) (value : Nat)
  | notify
  | readReq (f : DmpFrame)
  | writeExp (f : DmpFrame)
  | writeInit (f : DmpFrame)
  | segment (f : DmpFrame)
  | segRead (f : DmpFrame)
  | describe (f : DmpFrame)
  | transferAbandoned (owner : XferOwner)
  | winRead (index : Nat) (sub : Nat) (length : Nat) (offset : Nat) (wseq : Nat)
  | winWrite (index : Nat) (sub : Nat) (offset : Nat) (total : Nat) (data : List Byte) (wseq : Nat)
  | winDescribe (index : Nat) (sub : Nat) (wseq : Nat)
  | dictWrite (path : Path) (index : Nat) (sub : Nat) (value : List Byte)
  | fpAtomic (path : Path) (record : List Byte)
  | bgReplace (path : Path) (q : Nat) (value : Nat)
  | bgBcast (path : Path) (q : Nat) (record : List Byte)
  | scrHostRange (path : Path) (record : List Byte)
  | safTest (path : Path) (value : Nat)
  | flipStateArm (path : Path)
  | flipStateDisarm (path : Path)
  | load (p : Packet)
  | store (p : Packet)
  | flaggedStore (p : Packet)
  | atomic (p : Packet)
  | response (p : Packet)
  | wyBrickState (p : Packet)
  | wyBrickGradient (p : Packet)
  | wyAck (p : Packet)
  | wyResendReq (p : Packet)
  | wyEncodeReq (p : Packet)
  | wyEncodeRetry (p : Packet)
  | wyLedger (p : Packet)
  | wyFence (p : Packet)
  | wyRepair (p : Packet)
  | wyRepairReq (p : Packet)
  | wyReady (p : Packet)
  | rdxOpen (p : Packet)
  | rdxSegment (p : Packet)
  | rdxCredit (p : Packet)
  | rdxAbandon (p : Packet)
  | rdxNormPartial (p : Packet)
  | heartbeat (p : Packet)
  | hello (p : Packet)
  | echo (p : Packet)
  | echoReply (p : Packet)
  | barrierArrive (p : Packet)
  | barrierRelease (p : Packet)
  | bcastData (p : Packet)
  | bcastResume (p : Packet)
  | bcastDone (p : Packet)
  | heartbeatTick
  | peerSilent (node : Nat)
  | requestTimeout (tag : Nat)
  | flagTimeout (src : Nat) (part : Nat) (seq : Nat)
  | deltaResend (q : Nat) (kind : Nat) (course : Nat) (rank : Nat)
  | encodeReqResend (q : Nat) (course : Nat) (rank : Nat)
  | versionRetry (q : Nat) (course : Nat) (lost : Nat)
  | mpResponse (port : Nat) (answer : MpAnswer)
  | mpTimeout (port : Nat)
  | rdxStalled (sid : Nat)
  | commitStalled (sid : Nat)
  | barrierCountdownExpiry (q : Nat) (kind : Nat)
  | knownAnswerSlot (g : Nat) (pass : Bool)
  | lockstepMiscompare
  | safMutualCheck (agree : Bool)
  | watchdogTrip (site : TripSite)
  | supplyExcursion (x : Excursion)
  | regionSample (mv : List Nat) (temps : List Int)
  | mortarVerify (q : Nat)
  | scrubLine
  | scrLapLimit
  | pacedRelease (port : PacePort) (scheduled : Nat) (ready : Nat) (out : PortOutput)
  | epInTile (q : Nat) (token : Nat) (ordinal : Nat) (t : Tile)
  | epOutTile (take : HostTake)
  | fpLinkUp (up : Bool)
  | vreqStep
  | alignEdge (counts : List Nat)
  | alignTimeout
  | resetnAssert
  | resetnRelease
  | tapInstruction (op : TapOp)
  | ijtagInstrument (i : Instrument)
  | mpRefresh (port : Nat) (high : Bool)
  | fpTxRetry (cycles : Nat)
  | mgxLink (port : MgPort) (up : Bool)
  | powerUp
  deriving DecidableEq, Repr

end Sys2Proof
end

