-- ==== Sys2Proof/Decode.lean ====
section
/-! DEFINITION. The block's commands have no encoding: spec/opcode_table.json gives no row any bits. -/
namespace Sys2Proof

/-- The command a word spells. No row of the table gives bits, so no word spells a command. DESIGN CHOICE: log entry 2. -/
def decodeTableWord (_nbits _w : Nat) : Option Instr := none

end Sys2Proof
end

