-- ==== Sys2Proof/Machine/Keys.lean ====
section
/-! DEFINITION. The object dictionary's index and subindex of every entry, as one number index × 256 + subindex (the key
of the register file), under the entry's own name. A family's entry takes the family's number (queue, partition, port,
stack, plan, layer); an entry that repeats over subindexes takes its place in the run, counted from 0. -/
namespace Sys2Proof.Machine

abbrev K.DEVICE_TYPE : Nat := 1048576
abbrev K.DEVICE_NAME : Nat := 1050624
abbrev K.HW_VERSION : Nat := 1050880
abbrev K.FW_VERSION : Nat := 1051136
abbrev K.IDENTITY_COUNT : Nat := 1054720
abbrev K.VENDOR_ID : Nat := 1054721
abbrev K.PRODUCT_CODE : Nat := 1054722
abbrev K.REVISION : Nat := 1054723
abbrev K.SERIAL : Nat := 1054724
abbrev K.PLB_MODE : Nat := 2359552
abbrev K.RDX_MODE : Nat := 2556160
abbrev K.RDX_NORM_MODE : Nat := 2556416
abbrev K.TRW_MODE : Nat := 2621696
abbrev K.MIX_MODE : Nat := 2687232
abbrev K.RPT_MODE : Nat := 2752768
abbrev K.SCR_MODE : Nat := 2818304
abbrev K.SNP_MODE : Nat := 2883840
abbrev K.MSN_PTP_MODE : Nat := 3014912
abbrev K.MSN_LIFE_MODE : Nat := 3015168
abbrev K.Q_COUNT (q : Nat) : Nat := (0x2010 + q) * 256 + 0
abbrev K.DQ_BASE (q : Nat) : Nat := (0x2010 + q) * 256 + 1
abbrev K.DQ_SIZE (q : Nat) : Nat := (0x2010 + q) * 256 + 2
abbrev K.DQ_PRODUCER (q : Nat) : Nat := (0x2010 + q) * 256 + 3
abbrev K.DQ_CONSUMER (q : Nat) : Nat := (0x2010 + q) * 256 + 4
abbrev K.CQ_BASE (q : Nat) : Nat := (0x2010 + q) * 256 + 5
abbrev K.CQ_SIZE (q : Nat) : Nat := (0x2010 + q) * 256 + 6
abbrev K.CQ_PRODUCER (q : Nat) : Nat := (0x2010 + q) * 256 + 7
abbrev K.CQ_CONSUMER (q : Nat) : Nat := (0x2010 + q) * 256 + 8
abbrev K.Q_STATE (q : Nat) : Nat := (0x2010 + q) * 256 + 9
abbrev K.Q_EVENT (q : Nat) : Nat := (0x2010 + q) * 256 + 10
abbrev K.STR_C0_RESERVE : Nat := 2097664
abbrev K.STR_IN_FLIGHT : Nat := 2097920
abbrev K.STR_ACCEPTED : Nat := 7340033
abbrev K.STR_REFUSED : Nat := 7340034
abbrev K.STR_FULL_NS : Nat := 7340035
abbrev K.CQ_FULL_NS : Nat := 7340036
abbrev K.VAR_RUN : Nat := 7340037
abbrev K.VAR_UNMARKED : Nat := 7340038
abbrev K.ABORTS_WON : Nat := 7340039
abbrev K.ABORTS_LOST : Nat := 7340040
abbrev K.DQ_OVERRUN : Nat := 7340041
abbrev K.EP_VALID_CLAMPED : Nat := 7340042
abbrev K.SST_HOD_TILES : Nat := 2163200
abbrev K.SST_TROUGH_TILES : Nat := 2163456
abbrev K.SST_RETENTION_TILES : Nat := 2163712
abbrev K.SST_MAPCACHE_TILES : Nat := 2163968
abbrev K.SST_HOME_TILES : Nat := 2164224
abbrev K.SST_HOME_FREE : Nat := 2164480
abbrev K.MP_TIMEOUT_US : Nat := 2228992
abbrev K.MP_COUNT (q : Nat) : Nat := (0x2220 + q) * 256 + 0
abbrev K.MP_STATE (q : Nat) : Nat := (0x2220 + q) * 256 + 1
abbrev K.MP_TILE_LIMIT (q : Nat) : Nat := (0x2220 + q) * 256 + 2
abbrev K.MP_META_BASE (q : Nat) : Nat := (0x2220 + q) * 256 + 3
abbrev K.HM_COUNT (q : Nat) : Nat := (0x2210 + q) * 256 + 0
abbrev K.HM_FIRST (q : Nat) : Nat := (0x2210 + q) * 256 + 1
abbrev K.HM_NAMES (q : Nat) : Nat := (0x2210 + q) * 256 + 2
abbrev K.HM_COPY_A (q : Nat) : Nat := (0x2210 + q) * 256 + 3
abbrev K.HM_COPY_B (q : Nat) : Nat := (0x2210 + q) * 256 + 4
abbrev K.HM_STATE (q : Nat) : Nat := (0x2210 + q) * 256 + 5
abbrev K.WB_COUNT (q : Nat) : Nat := (0x2230 + q) * 256 + 0
abbrev K.WB_FIRST (q : Nat) : Nat := (0x2230 + q) * 256 + 1
abbrev K.WB_NAMES (q : Nat) : Nat := (0x2230 + q) * 256 + 2
abbrev K.WB_PHYS (q : Nat) : Nat := (0x2230 + q) * 256 + 3
abbrev K.WB_SLOTS (q : Nat) : Nat := (0x2230 + q) * 256 + 4
abbrev K.TIER_BOUND_NS (i : Nat) : Nat := 7352320 + 1 + i
abbrev K.TIER_IDLE_NS (i : Nat) : Nat := 7352320 + 4 + i
abbrev K.TIER_READ_BYTES (i : Nat) : Nat := 7352320 + 7 + i
abbrev K.TIER_WRITE_BYTES (i : Nat) : Nat := 7352320 + 10 + i
abbrev K.TIER_REG_HOLD_NS (i : Nat) : Nat := 7352320 + 13 + i
abbrev K.TIER2_TIMEOUT_NS : Nat := 7352336
abbrev K.MP_BP_NS (i : Nat) : Nat := 7352576 + 1 + i
abbrev K.MP_REFRESH_NS (i : Nat) : Nat := 7352832 + 1 + i
abbrev K.MP_FAILURES (i : Nat) : Nat := 7353088 + 1 + i
abbrev K.WB_HITS : Nat := 7353601
abbrev K.WB_MISSES : Nat := 7353602
abbrev K.WB_WRITEBACKS : Nat := 7353603
abbrev K.WB_DISCARDED : Nat := 7353604
abbrev K.HOME_TILES (i : Nat) : Nat := 2229248 + 1 + i
abbrev K.ARITH_COUNT : Nat := 3146752
abbrev K.ARITH_MODE (i : Nat) : Nat := 3146752 + 1 + i
abbrev K.SEED_COUNT : Nat := 3147008
abbrev K.JOB_SEED (i : Nat) : Nat := 3147008 + 1 + i
abbrev K.NAN_OUT_TRG : Nat := 7356417
abbrev K.NAN_OUT_RDX : Nat := 7356418
abbrev K.NAN_OUT_TRW : Nat := 7356419
abbrev K.NARROW_SATURATED : Nat := 7356420
abbrev K.NARROW_OVERFLOW : Nat := 7356421
abbrev K.HOD_MP_PORTS : Nat := 2294272
abbrev K.HOD_MP_OFFSET : Nat := 2294528
abbrev K.HOD_MP_SEGS : Nat := 2294784
abbrev K.HOD_PREFETCH : Nat := 2295040
abbrev K.HOD_YARD_SEGS : Nat := 2295296
abbrev K.HOD_YARD_FREE : Nat := 2295552
abbrev K.HOD_MP_FREE : Nat := 2295808
abbrev K.HS_COUNT (q : Nat) : Nat := (0x2310 + q) * 256 + 0
abbrev K.HS_STATE (q : Nat) : Nat := (0x2310 + q) * 256 + 1
abbrev K.HS_PARTITION (q : Nat) : Nat := (0x2310 + q) * 256 + 2
abbrev K.HS_RECORDS (q : Nat) : Nat := (0x2310 + q) * 256 + 3
abbrev K.HS_YARD_SEGS (q : Nat) : Nat := (0x2310 + q) * 256 + 4
abbrev K.HS_MP_SEGS (q : Nat) : Nat := (0x2310 + q) * 256 + 5
abbrev K.LOG_COUNT : Nat := 2359808
abbrev K.LOG_BASE : Nat := 2359809
abbrev K.LOG_SIZE : Nat := 2359810
abbrev K.LOG_PRODUCER : Nat := 2359811
abbrev K.LOG_CONSUMER : Nat := 2359812
abbrev K.LOG_STATE : Nat := 2359813
abbrev K.LOG_PARTITION : Nat := 2359814
abbrev K.HOD_PUSHED : Nat := 7360513
abbrev K.HOD_POPPED : Nat := 7360514
abbrev K.HOD_SPILLS : Nat := 7360515
abbrev K.HOD_FILLS : Nat := 7360516
abbrev K.HOD_FULL_NS : Nat := 7360517
abbrev K.HOD_FULL_EVENTS : Nat := 7360518
abbrev K.HOD_MP_WAIT_NS : Nat := 7360519
abbrev K.PLB_TILES : Nat := 7360769
abbrev K.PLB_LOGGED : Nat := 7360770
abbrev K.PLB_LOG_DROPPED : Nat := 7360771
abbrev K.PLB_KEY_OVERFLOW : Nat := 7360772
abbrev K.PLB_POISON_FOLDED : Nat := 7360773
abbrev K.XP_COUNT (q : Nat) : Nat := (0x2510 + q) * 256 + 0
abbrev K.XP_STATE (q : Nat) : Nat := (0x2510 + q) * 256 + 1
abbrev K.XP_PARTITION (q : Nat) : Nat := (0x2510 + q) * 256 + 2
abbrev K.XP_EXPERTS (q : Nat) : Nat := (0x2510 + q) * 256 + 3
abbrev K.XP_TOPK (q : Nat) : Nat := (0x2510 + q) * 256 + 4
abbrev K.XP_ROW_CODE (q : Nat) : Nat := (0x2510 + q) * 256 + 5
abbrev K.XP_CAPACITY (q : Nat) : Nat := (0x2510 + q) * 256 + 6
abbrev K.XP_COUNTS_BASE (q : Nat) : Nat := (0x2510 + q) * 256 + 7
abbrev K.XP_DEST_TILES (q : Nat) : Nat := (0x2510 + q) * 256 + 8
abbrev K.SIV_COMPARISONS : Nat := 7364609
abbrev K.SIV_TILES_SKIPPED : Nat := 7364610
abbrev K.SIV_MERGED : Nat := 7364611
abbrev K.SIV_ROWS : Nat := 7364612
abbrev K.SIV_DISPATCHED : Nat := 7364613
abbrev K.SIV_OVERFLOWED : Nat := 7364614
abbrev K.SIV_UNROUTED : Nat := 7364615
abbrev K.SIV_PAD_ROWS : Nat := 7364616
abbrev K.TRG_HOT_THRESHOLD : Nat := 2490880
abbrev K.TRG_CQ_DEPTH : Nat := 2491136
abbrev K.TRG_FREE_TILES : Nat := 2491392
abbrev K.TRG_LAYERS_OPEN : Nat := 2491648
abbrev K.LS_COUNT (q : Nat) : Nat := (0x2610 + q) * 256 + 0
abbrev K.LS_STATE (q : Nat) : Nat := (0x2610 + q) * 256 + 1
abbrev K.LS_PARTITION (q : Nat) : Nat := (0x2610 + q) * 256 + 2
abbrev K.LS_ORDINALS (q : Nat) : Nat := (0x2610 + q) * 256 + 3
abbrev K.LS_SLOTS (q : Nat) : Nat := (0x2610 + q) * 256 + 4
abbrev K.LS_FIRST (q : Nat) : Nat := (0x2610 + q) * 256 + 5
abbrev K.TRG_TERMS : Nat := 7368705
abbrev K.TRG_MASKED : Nat := 7368706
abbrev K.TRG_PRESUM_ROWS : Nat := 7368707
abbrev K.TRG_HOT_ROWS : Nat := 7368708
abbrev K.TRG_CQ_STALL_NS : Nat := 7368709
abbrev K.TRG_FULL_NS : Nat := 7368710
abbrev K.TRG_LAYERS_DONE : Nat := 7368711
abbrev K.TRG_POISON_LINES : Nat := 7368712
abbrev K.RG_COUNT (q : Nat) : Nat := (0x2710 + q) * 256 + 0
abbrev K.RG_STATE (q : Nat) : Nat := (0x2710 + q) * 256 + 1
abbrev K.RG_SIZE (q : Nat) : Nat := (0x2710 + q) * 256 + 2
abbrev K.RG_RANK (q : Nat) : Nat := (0x2710 + q) * 256 + 3
abbrev K.RG_TABLE (q : Nat) : Nat := (0x2710 + q) * 256 + 4
abbrev K.RG_GROUP_ID (q : Nat) : Nat := (0x2710 + q) * 256 + 5
abbrev K.RDX_SEG_CREDITS : Nat := 2556672
abbrev K.RDX_STALL_MS : Nat := 2556928
abbrev K.RDX_REPAIR_GROUPS : Nat := 2557184
abbrev K.RDX_NORM_VALUE (i : Nat) : Nat := 2557440 + 1 + i
abbrev K.RDX_CLIP (i : Nat) : Nat := 2557696 + 1 + i
abbrev K.RDX_ADDS : Nat := 7372801
abbrev K.RDX_BYTES_SENT : Nat := 7372802
abbrev K.RDX_BYTES_RECEIVED : Nat := 7372803
abbrev K.RDX_STALL_EVENTS : Nat := 7372804
abbrev K.RDX_GF_BYTES : Nat := 7372805
abbrev K.RDX_FOREIGN : Nat := 7372806
abbrev K.RDX_ABANDONS : Nat := 7372807
abbrev K.RDX_RECV_WAIT_NS (i : Nat) : Nat := 7373056 + 1 + i
abbrev K.RDX_SEND_WAIT_NS (i : Nat) : Nat := 7373312 + 1 + i
abbrev K.TRW_WINDOW : Nat := 2621952
abbrev K.TRW_SLOTS : Nat := 2622208
abbrev K.TRW_GROUPS_OUT : Nat := 2622464
abbrev K.TRW_ELEMENTS : Nat := 7376897
abbrev K.TRW_OPS : Nat := 7376898
abbrev K.TRW_MASKED : Nat := 7376899
abbrev K.TRW_GATED_BRICKS : Nat := 7376900
abbrev K.TRW_DELTA_BRICKS : Nat := 7376901
abbrev K.TRW_RET_WAIT_NS : Nat := 7376902
abbrev K.TRW_REPAIR_WAIT_NS : Nat := 7376903
abbrev K.TRW_RESIDUE_RETRIES : Nat := 7376904
abbrev K.TRW_RESIDUE_FAILS : Nat := 7376905
abbrev K.TRW_SPLIT_CLAMPED : Nat := 7376906
abbrev K.WY_COUNT (q : Nat) : Nat := (0x3010 + q) * 256 + 0
abbrev K.WYTHE_STATE (q : Nat) : Nat := (0x3010 + q) * 256 + 1
abbrev K.WYTHE_K (q : Nat) : Nat := (0x3010 + q) * 256 + 2
abbrev K.WYTHE_M (q : Nat) : Nat := (0x3010 + q) * 256 + 3
abbrev K.WYTHE_RANK (q : Nat) : Nat := (0x3010 + q) * 256 + 4
abbrev K.WYTHE_ID (q : Nat) : Nat := (0x3010 + q) * 256 + 5
abbrev K.BOND_SHIFT (q : Nat) : Nat := (0x3010 + q) * 256 + 6
abbrev K.CODED_FIRST (q : Nat) : Nat := (0x3010 + q) * 256 + 7
abbrev K.CODED_COURSES (q : Nat) : Nat := (0x3010 + q) * 256 + 8
abbrev K.MEMBER_TABLE (q : Nat) : Nat := (0x3010 + q) * 256 + 9
abbrev K.HEADER_FIRST (q : Nat) : Nat := (0x3010 + q) * 256 + 10
abbrev K.WYTHE_REFUSED (q : Nat) : Nat := (0x3010 + q) * 256 + 11
abbrev K.MIX_DELTAS_APPLIED : Nat := 7380993
abbrev K.MIX_DENSE_BYTES : Nat := 7380994
abbrev K.MIX_PACKED_BYTES : Nat := 7380995
abbrev K.MIX_MALFORMED : Nat := 7380996
abbrev K.MIX_MISDIRECTED : Nat := 7380997
abbrev K.MIX_HEADER_BAD : Nat := 7380998
abbrev K.SL_COUNT (q : Nat) : Nat := (0x3030 + q) * 256 + 0
abbrev K.GRAD_FIRST (q : Nat) : Nat := (0x3030 + q) * 256 + 1
abbrev K.GRAD_COURSES (q : Nat) : Nat := (0x3030 + q) * 256 + 2
abbrev K.GHEADER_FIRST (q : Nat) : Nat := (0x3030 + q) * 256 + 3
abbrev K.LEDGER_FIRST (q : Nat) : Nat := (0x3030 + q) * 256 + 4
abbrev K.STEP_PHASE (q : Nat) : Nat := (0x3030 + q) * 256 + 5
abbrev K.EPOCH (q : Nat) : Nat := (0x3030 + q) * 256 + 6
abbrev K.MAP_EPOCH (q : Nat) : Nat := (0x3030 + q) * 256 + 7
abbrev K.LEDGER_SLOT (q : Nat) : Nat := (0x3030 + q) * 256 + 8
abbrev K.EPOCH_LIST_USED (q : Nat) : Nat := (0x3030 + q) * 256 + 9
abbrev K.COMMIT_ACK_US : Nat := 2687488
abbrev K.COMMIT_STALL_MS : Nat := 2687744
abbrev K.SEAL_BRICKS : Nat := 7381249
abbrev K.SEAL_RESEND_REQS : Nat := 7381250
abbrev K.DELTA_RESENDS : Nat := 7381251
abbrev K.ACK_DUPLICATE : Nat := 7381252
abbrev K.ACK_STALE : Nat := 7381253
abbrev K.ACK_REFUSED : Nat := 7381254
abbrev K.SEAL_BARRIER_NS : Nat := 7381255
abbrev K.COMMIT_BARRIER_NS : Nat := 7381256
abbrev K.COMMIT_HOLD_NS : Nat := 7381257
abbrev K.STEPS_COMMITTED : Nat := 7381258
abbrev K.MB_COUNT (q : Nat) : Nat := (0x3040 + q) * 256 + 0
abbrev K.MEMBER_CMD (q : Nat) : Nat := (0x3040 + q) * 256 + 1
abbrev K.MEMBER_STATUS (q : Nat) : Nat := (0x3040 + q) * 256 + 2
abbrev K.MEMBER_REFUSED (q : Nat) : Nat := (0x3040 + q) * 256 + 3
abbrev K.SILENT_MASK (q : Nat) : Nat := (0x3040 + q) * 256 + 4
abbrev K.SILENT_TIME (q : Nat) : Nat := (0x3040 + q) * 256 + 5
abbrev K.RANK_STATES (q : Nat) : Nat := (0x3040 + q) * 256 + 6
abbrev K.RB_STATE (q : Nat) : Nat := (0x3040 + q) * 256 + 7
abbrev K.RB_BRICKS_LEFT (q : Nat) : Nat := (0x3040 + q) * 256 + 8
abbrev K.SILENCE_MISSES : Nat := 3147264
abbrev K.RPT_RATE_PCT : Nat := 2753024
abbrev K.RPT_BRICKS_REBUILT : Nat := 7385089
abbrev K.RPT_DEGRADED_READS : Nat := 7385090
abbrev K.RPT_DEGRADED_NS : Nat := 7385091
abbrev K.RPT_POISON_REPAIRED : Nat := 7385092
abbrev K.RPT_REPAIR_BYTES : Nat := 7385093
abbrev K.RPT_RATE_HOLD_NS : Nat := 7385094
abbrev K.RPT_VERSION_RETRIES : Nat := 7385095
abbrev K.RPT_BREACH_COURSES : Nat := 7385096
abbrev K.MEMBER_COMMANDS : Nat := 7385097
abbrev K.MEMBER_FENCED_PKTS : Nat := 7385098
abbrev K.RPT_ENCODE_RESTARTS : Nat := 7385099
abbrev K.FP_NODE_ID : Nat := 3080704
abbrev K.FP_TIMEOUT_US : Nat := 3080960
abbrev K.FP_LEVEL_MAX : Nat := 3081216
abbrev K.FP_ATOMIC : Nat := 3081472
abbrev K.FP_TAGS_FREE : Nat := 3081728
abbrev K.FP_BOOT_NONCE : Nat := 3081984
abbrev K.FP_BARRIER_MARGIN_NS : Nat := 3082240
abbrev K.FW_COUNT (q : Nat) : Nat := (0x2F10 + q) * 256 + 0
abbrev K.WIN_TABLE (q : Nat) : Nat := (0x2F10 + q) * 256 + 1
abbrev K.WIN_STATE (q : Nat) : Nat := (0x2F10 + q) * 256 + 2
abbrev K.APERTURE_FIRST (q : Nat) : Nat := (0x2F10 + q) * 256 + 3
abbrev K.APERTURE_NAMES (q : Nat) : Nat := (0x2F10 + q) * 256 + 4
abbrev K.FP_LEVEL (q : Nat) : Nat := (0x2F10 + q) * 256 + 5
abbrev K.JOB_FINGERPRINT (q : Nat) : Nat := (0x2F10 + q) * 256 + 6
abbrev K.FP_FINGERPRINT (q : Nat) : Nat := (0x2F10 + q) * 256 + 7
abbrev K.FP_WARM (q : Nat) : Nat := (0x2F10 + q) * 256 + 8
abbrev K.BG_COUNT (q : Nat) : Nat := (0x2F30 + q) * 256 + 0
abbrev K.BG_STATE (q : Nat) : Nat := (0x2F30 + q) * 256 + 1
abbrev K.BG_SIZE (q : Nat) : Nat := (0x2F30 + q) * 256 + 2
abbrev K.BG_POSITION (q : Nat) : Nat := (0x2F30 + q) * 256 + 3
abbrev K.BG_TABLE (q : Nat) : Nat := (0x2F30 + q) * 256 + 4
abbrev K.BG_JOB (q : Nat) : Nat := (0x2F30 + q) * 256 + 5
abbrev K.BG_REPLACE (q : Nat) : Nat := (0x2F30 + q) * 256 + 6
abbrev K.BG_BCAST (q : Nat) : Nat := (0x2F30 + q) * 256 + 7
abbrev K.BCAST_STATUS (q : Nat) : Nat := (0x2F30 + q) * 256 + 8
abbrev K.FP_TX_PACKETS : Nat := 7389185
abbrev K.FP_RX_PACKETS : Nat := 7389186
abbrev K.FP_RX_DISCARDED : Nat := 7389187
abbrev K.FP_TIMEOUTS : Nat := 7389188
abbrev K.FP_ERROR_RSP : Nat := 7389189
abbrev K.FP_WINDOW_REFUSED : Nat := 7389190
abbrev K.FP_APERTURE_MISS : Nat := 7389191
abbrev K.FP_TAG_WAIT_NS : Nat := 7389192
abbrev K.FP_COMBINED_RSP : Nat := 7389193
abbrev K.FP_COMBINE_BAD : Nat := 7389194
abbrev K.FP_ORDER_TIMEOUTS : Nat := 7389195
abbrev K.FP_BARRIER_LATE : Nat := 7389196
abbrev K.FP_REPARENTS : Nat := 7389197
abbrev K.FP_BCAST_DUPLICATES : Nat := 7389198
abbrev K.FP_PEER_RESTARTS : Nat := 7389199
abbrev K.TIMING_MODE : Nat := 2965504
abbrev K.PACE_MP_CYCLES (i : Nat) : Nat := 2966016 + 1 + i
abbrev K.DET_POLICY (i : Nat) : Nat := 2966528 + 1 + i
abbrev K.REGION_MV (i : Nat) : Nat := 2969600 + 1 + i
abbrev K.REGION_TEMP (i : Nat) : Nat := 2969856 + 1 + i
abbrev K.ALIGN_DONE : Nat := 9453568
abbrev K.ALIGN_STATUS : Nat := 9453824
abbrev K.ALIGN_COUNTS (i : Nat) : Nat := 9454080 + 1 + i
abbrev K.PACE_SLIPS : Nat := 7393281
abbrev K.PACE_SLIP_CYCLES : Nat := 7393282
abbrev K.PACE_REFRESH_CYCLES : Nat := 7393283
abbrev K.PACE_MP_LATE_CYCLES : Nat := 7393284
abbrev K.FP_LINK_RETRIES : Nat := 7393285
abbrev K.FP_RETRY_CYCLES : Nat := 7393286
abbrev K.EP_HOST_HOLD_CYCLES : Nat := 7393287
abbrev K.REGION_SKEW_EVENTS : Nat := 7393288
abbrev K.ALIGN_DRIFTS : Nat := 7393289
abbrev K.C0_RATE_PERMIL : Nat := 4194560
abbrev K.C0D_COUNT : Nat := 4194816
abbrev K.C0_DEPTH_YARD : Nat := 4194817
abbrev K.C0_DEPTH_MP : Nat := 4194818
abbrev K.C0_DEPTH_FP : Nat := 4194819
abbrev K.C0_DEPTH_EP : Nat := 4194820
abbrev K.MP_OUTSTANDING : Nat := 4195072
abbrev K.C0_MAX_NS : Nat := 4195328
abbrev K.PB_COUNT (q : Nat) : Nat := (0x4010 + q) * 256 + 0
abbrev K.REG_RATE (q i : Nat) : Nat := (0x4010 + q) * 256 + 1 + i
abbrev K.REG_DEPTH (q i : Nat) : Nat := (0x4010 + q) * 256 + 33 + i
abbrev K.SCH_LATE (i : Nat) : Nat := 7397376 + 1 + i
abbrev K.C0_HOLD_NS : Nat := 7397381
abbrev K.C0_COMPLETED : Nat := 7397382
abbrev K.REG_HOLD_NS (i : Nat) : Nat := 7397632 + 1 + i
abbrev K.SCR_LAP_LIMIT_S : Nat := 2818560
abbrev K.SCR_MP_PORTS : Nat := 2818816
abbrev K.SCR_BOOST : Nat := 2819072
abbrev K.SCR_LAP_S : Nat := 2819328
abbrev K.SCR_LAST_LAP_S : Nat := 2819584
abbrev K.SCR_PROGRESS : Nat := 2819840
abbrev K.SCR_HOST_RANGE : Nat := 2820096
abbrev K.EV_MASK : Nat := 6291712
abbrev K.EV_PRODUCER : Nat := 6291968
abbrev K.EV_CONSUMER : Nat := 6292224
abbrev K.EV_READ : Nat := 6292480
abbrev K.EV_SEEN : Nat := 6292736
abbrev K.EV_LOST : Nat := 6292992
abbrev K.SF_COUNT : Nat := 6295552
abbrev K.SAFE_STATE : Nat := 6295553
abbrev K.SAF_CAUSE : Nat := 6295554
abbrev K.SAF_NODE : Nat := 6295555
abbrev K.SAF_TIME : Nat := 6295556
abbrev K.SAF_SUSPECT_SINCE : Nat := 6295557
abbrev K.SAF_TEST : Nat := 6295558
abbrev K.SAF_VERIFY_RATE : Nat := 6295808
abbrev K.LG_OUT : Nat := 6296064
abbrev K.FM_COUNT : Nat := 10489856
abbrev K.FLIP_TARGET : Nat := 10489857
abbrev K.FLIP_MASK : Nat := 10489858
abbrev K.FLIP_STATE : Nat := 10489859
abbrev K.RS_CORR1 : Nat := 7401473
abbrev K.RS_CORR2 : Nat := 7401474
abbrev K.RS_UNCORR : Nat := 7401475
abbrev K.POISON_READ : Nat := 7401476
abbrev K.POISON_DELIVERED : Nat := 7401477
abbrev K.CRC_MISMATCH : Nat := 7401478
abbrev K.CORR2_VERIFY_FAIL : Nat := 7401479
abbrev K.RET_REPAIRED : Nat := 7401480
abbrev K.MIX_POISON_DROPPED : Nat := 7401481
abbrev K.SCR_LINES : Nat := 7401482
abbrev K.SCR_CORRECTED : Nat := 7401483
abbrev K.SCR_POISONED : Nat := 7401484
abbrev K.SCR_LAPS : Nat := 7401485
abbrev K.MORTAR_VERIFIED : Nat := 7401486
abbrev K.MORTAR_MISMATCHES : Nat := 7401487
abbrev K.LANE_RESIDUE_RETRIES : Nat := 7401488
abbrev K.GF_PARITY_RETRIES : Nat := 7401489
abbrev K.WATCHDOG_TRIPS : Nat := 7401490
abbrev K.KAT_RUNS : Nat := 7401491
abbrev K.KAT_FAILS : Nat := 7401492
abbrev K.MP_CORRECTED (i : Nat) : Nat := 7401728 + 1 + i
abbrev K.MP_UNCORRECTABLE (i : Nat) : Nat := 7401984 + 1 + i
abbrev K.SN_COUNT (q : Nat) : Nat := (0x2C10 + q) * 256 + 0
abbrev K.SNP_STATE (q : Nat) : Nat := (0x2C10 + q) * 256 + 1
abbrev K.SNP_STEP (q : Nat) : Nat := (0x2C10 + q) * 256 + 2
abbrev K.SNP_SNAP_ID (q : Nat) : Nat := (0x2C10 + q) * 256 + 3
abbrev K.SNP_RECORDS (q : Nat) : Nat := (0x2C10 + q) * 256 + 4
abbrev K.SNP_DIGEST (q : Nat) : Nat := (0x2C10 + q) * 256 + 5
abbrev K.SNP_LAST_NAME (q : Nat) : Nat := (0x2C10 + q) * 256 + 6
abbrev K.SNP_OUT_BYTES : Nat := 7405569
abbrev K.SNP_IN_BYTES : Nat := 7405570
abbrev K.SNP_REFUSED_RECORDS : Nat := 7405571
abbrev K.SNP_HOLD_NS : Nat := 7405572
abbrev K.DMP_COUNT : Nat := 1179648
abbrev K.DMP_ETHERTYPE : Nat := 1179649
abbrev K.DMP_MAC_A : Nat := 1179650
abbrev K.DMP_MAC_B : Nat := 1179651
abbrev K.NOTIFY_MAC_A : Nat := 1179652
abbrev K.NOTIFY_MAC_B : Nat := 1179653
abbrev K.NOTIFY_MASK : Nat := 1179654
abbrev K.DMP_LINK : Nat := 1179655
abbrev K.FWI_COUNT : Nat := 2052096
abbrev K.FW_IMAGE : Nat := 2052097
abbrev K.FWC_COUNT : Nat := 2052352
abbrev K.FW_CONTROL : Nat := 2052353
abbrev K.FW_STATUS : Nat := 2052608
abbrev K.FW_REFUSED : Nat := 2052864
abbrev K.DMP_RX_A : Nat := 7409665
abbrev K.DMP_RX_B : Nat := 7409666
abbrev K.DMP_DUPLICATES : Nat := 7409667
abbrev K.DMP_STALE : Nat := 7409668
abbrev K.DMP_DISCARDED : Nat := 7409669
abbrev K.DMP_ABORTS : Nat := 7409670
abbrev K.DMP_NOTIFY_SENT : Nat := 7409671
abbrev K.DMP_NOTIFY_DROPPED : Nat := 7409672
abbrev K.WIN_REQUESTS : Nat := 7409673
abbrev K.WIN_OVERRUNS : Nat := 7409674
abbrev K.TB_NOW : Nat := 5243136
abbrev K.TB_SET : Nat := 5243392
abbrev K.TB_SOURCE : Nat := 5243648
abbrev K.TREF_HZ : Nat := 5243904
abbrev K.TB_INCREMENT : Nat := 5244160
abbrev K.PTP_STATE : Nat := 5244416
abbrev K.PTP_DOMAIN : Nat := 5244672
abbrev K.PTP_OFFSET_NS : Nat := 5244928
abbrev K.PTP_STEP_NS : Nat := 5245184
abbrev K.PTP_RX_LATENCY_NS (i : Nat) : Nat := 5245440 + 1 + i
abbrev K.PTP_TX_LATENCY_NS (i : Nat) : Nat := 5245696 + 1 + i
abbrev K.PTP_MASTER : Nat := 5245952
abbrev K.PTP_PORT : Nat := 5246208
abbrev K.TB_TPPS_SECONDS : Nat := 5246464
abbrev K.PTP_EXCHANGE : Nat := 5246720
abbrev K.TB_ADJUST : Nat := 5246976
abbrev K.TID_COUNT : Nat := 2056192
abbrev K.TIER_ID (i : Nat) : Nat := 2056192 + 1 + i
abbrev K.ID_STATUS : Nat := 2056448
abbrev K.LT_POWER_ON_S : Nat := 8388865
abbrev K.LT_STARTS : Nat := 8388866
abbrev K.LT_FW_STARTS : Nat := 8388867
abbrev K.LT_FW_REFUSED : Nat := 8388868
abbrev K.LT_SAFE_FAULTS : Nat := 8388869
abbrev K.LT_LG_OUT : Nat := 8388870
abbrev K.LT_KAT_FAILS : Nat := 8388871
abbrev K.LT_CORRECTED : Nat := 8388872
abbrev K.LT_POISONS : Nat := 8388873
abbrev K.LT_BRICKS_REBUILT : Nat := 8388874
abbrev K.LT_SPARE_TAKEOVERS : Nat := 8388875
abbrev K.LT_PACE_SLIPS : Nat := 8388876
abbrev K.LT_ALIGN_FAILS : Nat := 8388877
abbrev K.LT_REGION_SKEW : Nat := 8388878
abbrev K.LT_JOBS : Nat := 8388879
abbrev K.LT_BREACHES : Nat := 8388880
abbrev K.LT_GRID : Nat := 8392704
abbrev K.LT_LATENCY (i : Nat) : Nat := 8392960 + 1 + i
abbrev K.LT_BANKS : Nat := 8393216
abbrev K.LIFE_RECORD : Nat := 8454144
abbrev K.LIFE_SHUTDOWN : Nat := 8454400
abbrev K.LIFE_STATE : Nat := 8454656
abbrev K.TB_STEPS : Nat := 7413761
abbrev K.PTP_SYNC_RX : Nat := 7413762
abbrev K.PTP_ANNOUNCE_TIMEOUTS : Nat := 7413763
abbrev K.PTP_DISCARDED : Nat := 7413764
abbrev K.TPPS_MISSED : Nat := 7413765
abbrev K.LIFE_PUSHES : Nat := 7413766
abbrev K.LIFE_PUSH_DROPPED : Nat := 7413767
abbrev K.VREQ_CODE : Nat := 9437440
abbrev K.VREQ_OUT : Nat := 9437696
abbrev K.FP_LINK : Nat := 9437952
abbrev K.MP_REFRESH_NOW : Nat := 9438208
abbrev K.FP_LINK_DOWN_NS : Nat := 7417857
abbrev K.EP_UNMATCHED_TILES : Nat := 7417858
abbrev K.VREQ_STEPS : Nat := 7417859
abbrev K.START_STAGE : Nat := 3015424
abbrev K.JB_COUNT (q : Nat) : Nat := (0x3020 + q) * 256 + 0
abbrev K.JOB_START (q : Nat) : Nat := (0x3020 + q) * 256 + 1
abbrev K.JOB_CONTROL (q : Nat) : Nat := (0x3020 + q) * 256 + 2
abbrev K.JOB_STATE (q : Nat) : Nat := (0x3020 + q) * 256 + 3
abbrev K.JOB_FAILED (q : Nat) : Nat := (0x3020 + q) * 256 + 4
abbrev K.HM_ADOPT (q : Nat) : Nat := (0x2240 + q) * 256 + 0
abbrev K.HM_ADOPT_ZEROED (q : Nat) : Nat := (0x2250 + q) * 256 + 0

end Sys2Proof.Machine
end

