-- ==== Sys2Proof/Config.lean ====
section
/-! DEFINITION. What the spec leaves to the die, the mask ROM or nobody: constants without a body. Nothing in Lean
evaluates one of them, and a statement holds whatever they are. -/
namespace Sys2Proof.Config

/-- The byte of a memory stack that no agent has written since its power-up (R504), by power-up count and byte address. DESIGN CHOICE: log entry 12. -/
opaque freeStackByte : Nat → Nat → BitVec 8

/-- The mark of a stack line that no agent has written since its power-up (R504), by power-up count and line number. -/
opaque freeStackMark : Nat → Nat → BitVec 32

/-- The 128-bit identity of a tier, least significant byte first in the value (R463: per die). PRESUMED: log entry 87. -/
opaque tierIdentity : Nat → BitVec 128

/-- Whether the SHA-384 hash of an image's public key is the one in the mask ROM (R452, R453 check 3), by the key's bytes. DEDUCED: log entry 88. -/
opaque keyAccepted : List (BitVec 8) → Bool

/-- Whether an image's ECDSA signature verifies (R452, R453 check 4), by the image's bytes. -/
opaque signatureOk : List (BitVec 8) → Bool

/-- The reference known-answer slot time of a station, in picoseconds less one (R466: mask ROM). DEDUCED: log entry 69. -/
opaque katReference : Nat → Nat

/-- Which version of a rewritten ring entry STR accepts (R367: either), by draw number. DESIGN CHOICE: log entry 24. -/
opaque headChoice : Nat → Bool

/-- The servo's increment, as an offset in millionths of the nominal one (R456: at most 500 either way), by draw number. DESIGN CHOICE: log entry 80. -/
opaque servoPpm : Nat → Nat

/-- Whether a servo offset is negative, by draw number. -/
opaque servoSign : Nat → Bool

/-- The place in their order of arrival of the contributions that an unordered descriptor adds (R169), by draw number and
position. DESIGN CHOICE: log entry 30. -/
opaque arrivalRank : Nat → Nat → Nat

/-- A block's forwarding time f of a barrier message, in FP port cycles (R339). DEDUCED: log entry 40. -/
opaque forwardCycles : Nat

/-- The turnaround of an ECHO reply, in FP port cycles (R320), by draw number. -/
opaque echoTurnaround : Nat → Nat

/-- The JEP106 code of Abahakor (R480: eleven bits of IDCODE, not stated). PRESUMED: log entry 7. -/
opaque jepCode : BitVec 11

/-- The bytes that the host returns for a function in host-assisted mode (R25), by draw number and position. DESIGN CHOICE: log entry 60. -/
opaque hostByte : Nat → Nat → BitVec 8

/-- The mismatches that the checks of the lanes will find after a start-up (R225, R401): lane group, and whether the rerun fails too, by draw
number. DESIGN CHOICE: log entry 100. -/
opaque laneFaults : Nat → List (Nat × Bool)

/-- The first half of a 16-bit brick whose first unit the lost member had retired and whose second it had not (R305: not stated), by draw number
and position. DESIGN CHOICE: log entry 101. -/
opaque lostHalf : Nat → Nat → BitVec 8

/-- How many tiles a broadcast has, as a block below the root knows it (R342: its packets do not say), by partition and job epoch.
DESIGN CHOICE: log entry 52. -/
opaque bcastTiles : Nat → Nat → Nat

end Sys2Proof.Config
end

