-- ==== Sys2Proof/Machine/Float.lean ====
section
/-! DEFINITION. Number formats, rounding and summation order (R94-R108). A value is computed exactly as an integer
times a power of two and rounded once; a quotient or root carries enough further bits, with the last one sticky, for
either rounding. -/
namespace Sys2Proof.Machine

/-- A numeric format of R94: exponent bits, mantissa bits, bias, and whether it is E4M3 (no infinity). -/
structure Fmt where
  eb : Nat
  mb : Nat
  bias : Nat
  sat : Bool
  deriving DecidableEq, Repr

def fmtFP32 : Fmt := { eb := 8, mb := 23, bias := 127, sat := false }
def fmtBF16 : Fmt := { eb := 8, mb := 7, bias := 127, sat := false }
def fmtFP16 : Fmt := { eb := 5, mb := 10, bias := 15, sat := false }
def fmtE4M3 : Fmt := { eb := 4, mb := 3, bias := 7, sat := true }
def fmtE5M2 : Fmt := { eb := 5, mb := 2, bias := 15, sat := false }

/-- The numeric format a format code names (R34). -/
def fmtOfCode : Nat → Option Fmt
  | 1 => some fmtFP32
  | 2 => some fmtBF16
  | 3 => some fmtFP16
  | 4 => some fmtE4M3
  | 5 => some fmtE5M2
  | _ => none

/-- A value (R95): NaN, an infinity, or ±n·2^e. -/
inductive FVal where
  | nan
  | inf (neg : Bool)
  | fin (neg : Bool) (n : Nat) (e : Int)
  deriving DecidableEq, Repr

/-- The value of an element's bits (R95). -/
def fValue (f : Fmt) (x : Nat) : FVal :=
  let neg := x.testBit (f.eb + f.mb)
  let e := (x >>> f.mb) % 2 ^ f.eb
  let m := x % 2 ^ f.mb
  let lsb : Int := 1 - (f.bias : Int) - (f.mb : Int)
  if e = 0 then .fin neg m lsb
  else if e = 2 ^ f.eb - 1 then
    if f.sat then (if m = 2 ^ f.mb - 1 then .nan else .fin neg (2 ^ f.mb + m) (lsb + ((e : Int) - 1)))
    else if m = 0 then .inf neg else .nan
  else .fin neg (2 ^ f.mb + m) (lsb + ((e : Int) - 1))

/-- The canonical NaN of a format (R94): 0x7F in E4M3, else the quiet bit alone. -/
def canonNan (f : Fmt) : Nat :=
  if f.sat then 2 ^ (f.eb + f.mb) - 1 else ((2 ^ f.eb - 1) <<< f.mb) + 2 ^ (f.mb - 1)

/-- The largest finite magnitude's bits. -/
def maxFinite (f : Fmt) : Nat :=
  if f.sat then 2 ^ (f.eb + f.mb) - 2 else ((2 ^ f.eb - 1) <<< f.mb) - 1

/-- What an infinity or an overflow becomes: infinity, or the largest finite value of E4M3 (R100). -/
def overBits (f : Fmt) : Nat := if f.sat then maxFinite f else (2 ^ f.eb - 1) <<< f.mb

/-- A result's sign bit. -/
def signBits (f : Fmt) (neg : Bool) : Nat := if neg then 2 ^ (f.eb + f.mb) else 0

/-- The two roundings of R101 and R102; `sr` carries its 16 random bits. -/
inductive Rounding where
  | rne
  | sr (r : Nat)
  deriving DecidableEq, Repr

/-- Whether a remainder `rem` of 2^sh units below the last place rounds away from zero (R100, R102). -/
def roundsUp (rm : Rounding) (odd : Bool) (rem sh : Nat) : Bool :=
  match rm with
  | .rne => decide (2 ^ sh < 2 * rem) || (decide (2 * rem = 2 ^ sh) && odd)
  | .sr r => decide (rem ≠ 0) && decide (r < rem * 65536 / 2 ^ sh)

/-- The bits of ±n·2^e rounded once to a format (R100-R102). -/
def roundMag (f : Fmt) (rm : Rounding) (n : Nat) (e : Int) : Nat :=
  if n = 0 then 0 else
    let lsb : Int := 1 - (f.bias : Int) - (f.mb : Int)
    let q : Int := max (e + (n.log2 : Int) - (f.mb : Int)) lsb
    let m :=
      if q ≤ e then n * 2 ^ (e - q).toNat
      else
        let sh := (q - e).toNat
        let m := n >>> sh
        if roundsUp rm (m % 2 = 1) (n % 2 ^ sh) sh then m + 1 else m
    let b := (q - lsb).toNat * 2 ^ f.mb + m
    if maxFinite f < b then overBits f else b

/-- A value in a format, rounded once. -/
def toBits (f : Fmt) (rm : Rounding) : FVal → Nat
  | .nan => canonNan f
  | .inf neg => signBits f neg + overBits f
  | .fin neg n e => signBits f neg + roundMag f rm n e

/-- A value as FP32. -/
def toFp32 (rm : Rounding) (v : FVal) : Word32 := BitVec.ofNat 32 (toBits fmtFP32 rm v)

/-- The value of an FP32 word. -/
def ofFp32 (x : Word32) : FVal := fValue fmtFP32 x.toNat

/-- Whether a value is finite. -/
def isFinite : FVal → Bool
  | .fin _ _ _ => true
  | _ => false

/-- Whether an FP32 word is a NaN. -/
def isNan32 (x : Word32) : Bool := decide (ofFp32 x = .nan)

/-- Whether an FP32 word is an infinity. -/
def isInf32 (x : Word32) : Bool := decide (x.toNat % 2 ^ 31 = 0x7F800000)

/-- A signed integer times 2^e as a value; the sign of an exact zero is the caller's. -/
def ofSigned (i : Int) (e : Int) (negZero : Bool) : FVal :=
  if i = 0 then .fin negZero 0 e else .fin (decide (i < 0)) i.natAbs e

/-- The exact sum (R97, R98). -/
def vAdd : FVal → FVal → FVal
  | .nan, _ => .nan
  | _, .nan => .nan
  | .inf a, .inf b => if a = b then .inf a else .nan
  | .inf a, .fin _ _ _ => .inf a
  | .fin _ _ _, .inf b => .inf b
  | .fin sa na ea, .fin sb nb eb =>
    let e := min ea eb
    let a : Int := (if sa then -1 else 1) * ((na * 2 ^ (ea - e).toNat : Nat) : Int)
    let b : Int := (if sb then -1 else 1) * ((nb * 2 ^ (eb - e).toNat : Nat) : Int)
    ofSigned (a + b) e (sa && sb && na == 0 && nb == 0)

/-- The value with its sign changed. -/
def vNeg : FVal → FVal
  | .nan => .nan
  | .inf a => .inf (!a)
  | .fin s n e => .fin (!s) n e

/-- The exact product (R97). -/
def vMul : FVal → FVal → FVal
  | .nan, _ => .nan
  | _, .nan => .nan
  | .inf a, .inf b => .inf (a != b)
  | .inf a, .fin s n _ => if n = 0 then .nan else .inf (a != s)
  | .fin s n _, .inf b => if n = 0 then .nan else .inf (s != b)
  | .fin sa na ea, .fin sb nb eb => .fin (sa != sb) (na * nb) (ea + eb)

/-- Twice a number plus one when a remainder is not zero: the sticky last bit. -/
def sticky (q rem : Nat) : Nat := 2 * q + (if rem = 0 then 0 else 1)

/-- The quotient, to 64 bits and a sticky bit: NaN for 0 ÷ 0 and ∞ ÷ ∞, an infinity for x ÷ 0 (R97). -/
def vDiv : FVal → FVal → FVal
  | .nan, _ => .nan
  | _, .nan => .nan
  | .inf _, .inf _ => .nan
  | .inf a, .fin s _ _ => .inf (a != s)
  | .fin s _ e, .inf b => .fin (s != b) 0 e
  | .fin sa na ea, .fin sb nb eb =>
    if nb = 0 then (if na = 0 then .nan else .inf (sa != sb))
    else
      let num := na * 2 ^ 120
      .fin (sa != sb) (sticky (num / nb) (num % nb)) (ea - eb - 121)

/-- Integer square root by `fuel` halvings of the bit position. -/
def isqrtStep : Nat → Nat → Nat → Nat
  | 0, _, r => r
  | k + 1, n, r => isqrtStep k n (if (r + 2 ^ k) * (r + 2 ^ k) ≤ n then r + 2 ^ k else r)

/-- Integer square root of a number below 2^400. -/
def isqrt (n : Nat) : Nat := isqrtStep 200 n 0

/-- The square root, to more than 64 bits and a sticky bit: NaN for a negative operand. -/
def vSqrt : FVal → FVal
  | .nan => .nan
  | .inf neg => if neg then .nan else .inf false
  | .fin neg n e =>
    if n = 0 then .fin neg 0 e
    else if neg then .nan
    else
      let odd := e % 2 = 1
      let n2 := (if odd then 2 * n else n) * 2 ^ 160
      let e2 := (if odd then e - 1 else e) - 160
      let r := isqrt n2
      .fin false (sticky r (n2 - r * r)) (e2 / 2 - 1)

/-- FP32 sum. -/
def fAdd (rm : Rounding) (a b : Word32) : Word32 := toFp32 rm (vAdd (ofFp32 a) (ofFp32 b))
/-- FP32 difference. -/
def fSub (rm : Rounding) (a b : Word32) : Word32 := toFp32 rm (vAdd (ofFp32 a) (vNeg (ofFp32 b)))
/-- FP32 product. -/
def fMul (rm : Rounding) (a b : Word32) : Word32 := toFp32 rm (vMul (ofFp32 a) (ofFp32 b))
/-- FP32 quotient. -/
def fDiv (rm : Rounding) (a b : Word32) : Word32 := toFp32 rm (vDiv (ofFp32 a) (ofFp32 b))
/-- FP32 square root. -/
def fSqrt (rm : Rounding) (a : Word32) : Word32 := toFp32 rm (vSqrt (ofFp32 a))

/-- Whether a < b, as numbers; false with a NaN. -/
def fLt (a b : Word32) : Bool :=
  match vAdd (ofFp32 a) (vNeg (ofFp32 b)) with
  | .fin s n _ => s && decide (n ≠ 0)
  | .inf s => s
  | .nan =>
    match ofFp32 a, ofFp32 b with
    | .inf x, .inf y => x && !y
    | _, _ => false

/-- The result of narrowing or widening, and which counter of R115 it touches. -/
structure Narrowed where
  value : Nat
  saturated : Bool
  overflowed : Bool
  deriving DecidableEq, Repr

/-- The exact magnitude of a value exceeds 448. -/
def above448 : FVal → Bool
  | .fin _ n e => if 0 ≤ e then decide (448 < n * 2 ^ e.toNat) else decide (448 * 2 ^ (-e).toNat < n)
  | .inf _ => true
  | .nan => false

/-- Narrowing from FP32 (R100), with the counts of R115. -/
def narrow (f : Fmt) (x : Word32) : Narrowed :=
  let v := ofFp32 x
  let b := toBits f .rne v
  { value := b, saturated := f.sat && above448 v,
    overflowed := !f.sat && isFinite v && decide (b % 2 ^ (f.eb + f.mb) = overBits f) }

/-- Widening to FP32 (R99). -/
def widen (f : Fmt) (x : Nat) : Word32 := toFp32 .rne (fValue f x)

/-- The constants of R103. -/
def srC1 : Nat := 0xC2B73A956E1D48F3
def srC2 : Nat := 0x8F4E29D1B6A70C55

/-- The round function of R103. -/
def srRound (x : Nat) : Nat :=
  let x := x * srC1 % 2 ^ 64
  let x := x ^^^ (x >>> 32)
  let x := x * srC2 % 2 ^ 64
  x ^^^ (x >>> 29)

/-- The 16 random bits of R103. -/
def srBits (seed step ctrHi ctrLo : Nat) : Nat :=
  let k := seed ^^^ (step * srC2 % 2 ^ 64)
  let x := srRound (ctrLo ^^^ k)
  let x := srRound (x ^^^ ctrHi)
  let x := srRound (x ^^^ k)
  let x := srRound (x ^^^ ctrHi)
  x >>> 48

/-- What a stochastic rounding's counter is made of (R104), and the arithmetic mode in force (R107). -/
structure SrCtx where
  reference : Bool
  seed : Nat
  step : Nat
  tensor : Nat
  site : Nat
  elem : Nat
  deriving DecidableEq, Repr

/-- The element index of R104: (tile name << 10) | linear index. -/
def elemIndex (name i : Nat) : Nat := name * 1024 + i

/-- The high counter word of R104. -/
def ctrHi (c : SrCtx) (level first : Nat) : Nat :=
  (c.tensor % 65536) * 2 ^ 48 + c.site * 2 ^ 40 + (level % 256) * 2 ^ 32 + first % 2 ^ 32

/-- The stochastic rounding of one node. -/
def srAt (c : SrCtx) (level first : Nat) : Rounding := .sr (srBits c.seed c.step (ctrHi c level first) c.elem)

/-- A partial sum: its value and, in reference mode, its compensation term (R108). -/
structure Part where
  s : Word32
  c : Word32
  deriving DecidableEq, Repr

/-- two_sum of R108. -/
def twoSum (a b : Word32) : Word32 × Word32 :=
  let s := fAdd .rne a b
  let bb := fSub .rne s a
  (s, fAdd .rne (fSub .rne a (fSub .rne s bb)) (fSub .rne b bb))

/-- The `add` of R105 at a node of R106: stochastic in field mode, compensated in reference mode. -/
def addNode (c : SrCtx) (level first : Nat) (a b : Part) : Part :=
  if c.reference then
    let t := twoSum a.s b.s
    { s := t.1, c := fAdd .rne (fAdd .rne a.c b.c) t.2 }
  else { s := fAdd (srAt c level first) a.s b.s, c := 0 }

/-- leaf of R108. -/
def leaf (x : Word32) : Part := { s := x, c := 0 }

/-- result of R108; an infinite or NaN sum ignores its compensation. -/
def result (c : SrCtx) (p : Part) : Word32 :=
  if c.reference && !(isNan32 p.s || isInf32 p.s) then fAdd .rne p.s p.c else p.s

/-- Ceiling of the base-two logarithm, 0 for 0 and 1. -/
def ceilLog2 (n : Nat) : Nat := if n ≤ 1 then 0 else (n - 1).log2 + 1

/-- tree(lo, n) of R105 over the listed terms; `fuel` bounds its height. -/
def treeSum (c : SrCtx) : Nat → Nat → List Part → Part
  | 0, _, xs => xs.headD (leaf 0)
  | fuel + 1, lo, xs =>
    if xs.length ≤ 1 then xs.headD (leaf 0)
    else
      let h := 2 ^ (ceilLog2 xs.length - 1)
      addNode c (ceilLog2 xs.length) lo (treeSum c fuel lo (xs.take h)) (treeSum c fuel (lo + h) (xs.drop h))

/-- The sum of R105 of a list of terms whose first index is `lo`. -/
def treeOf (c : SrCtx) (lo : Nat) (xs : List Part) : Part := treeSum c 33 lo xs

/-- A run of terms already summed: first index, length, partial sum (R106). -/
structure Run where
  first : Nat
  len : Nat
  part : Part
  deriving DecidableEq, Repr

/-- Add the top two runs while they cover equal power-of-two runs (R106). The newest run is first in the list. -/
def collapse (c : SrCtx) : Nat → List Run → List Run
  | 0, st => st
  | fuel + 1, a :: b :: t =>
    if a.len = b.len then
      collapse c fuel ({ first := b.first, len := 2 * b.len, part := addNode c (ceilLog2 (2 * b.len)) b.first b.part a.part } :: t)
    else a :: b :: t
  | _, st => st

/-- Push the next term on the stack of R106. -/
def pushTerm (c : SrCtx) (ix : Nat) (x : Part) (st : List Run) : List Run :=
  collapse c 33 ({ first := ix, len := 1, part := x } :: st)

/-- Add the remaining partials from the newest downward (R106). -/
def drainRuns (c : SrCtx) : List Run → Option Run
  | [] => none
  | a :: t => some (t.foldl (fun acc b =>
      { first := b.first, len := b.len + acc.len,
        part := addNode c (ceilLog2 (b.len + acc.len)) b.first b.part acc.part }) a)

end Sys2Proof.Machine
end

