-- ==== Sys2Proof/Machine/Sparse.lean ====
section
/-! DEFINITION. Sparse maps keyed by a number: a list of (key, value) pairs. A put keeps keys strictly rising where
they rise; a key that is not listed has no value of its own (the reader supplies the default). -/
namespace Sys2Proof.Machine

/-- A sparse map. -/
abbrev SMap (α : Type) := List (Nat × α)

/-- The value listed for key `k`. -/
def smapGet {α : Type} : SMap α → Nat → Option α
  | [], _ => none
  | (j, v) :: t, k => if j = k then some v else smapGet t k

/-- The map with `v` listed for key `k`. -/
def smapPut {α : Type} : SMap α → Nat → α → SMap α
  | [], k, v => [(k, v)]
  | (j, w) :: t, k, v =>
    if k < j then (k, v) :: (j, w) :: t
    else if j = k then (k, v) :: t
    else (j, w) :: smapPut t k v

/-- The map with nothing listed for key `k`. -/
def smapErase {α : Type} (m : SMap α) (k : Nat) : SMap α := m.filter (fun e => decide (e.1 ≠ k))

/-- The map with nothing listed from key `lo` up to but not including `hi`. -/
def smapEraseRun {α : Type} (m : SMap α) (lo hi : Nat) : SMap α :=
  m.filter (fun e => decide (e.1 < lo ∨ hi ≤ e.1))

/-- Whether a key is listed. -/
def smapHas {α : Type} (m : SMap α) (k : Nat) : Bool := (smapGet m k).isSome

/-- The listed keys rise strictly. -/
def keysRise {α : Type} : SMap α → Bool
  | [] => true
  | [_] => true
  | a :: b :: t => decide (a.1 < b.1) && keysRise (b :: t)

/-- A map from numbers to numbers whose unlisted keys read `dflt k`, in canonical form: keys rise and no entry equals
the default of its key. -/
def canonNat (dflt : Nat → Nat) (m : SMap Nat) : Bool := keysRise m && m.all (fun e => decide (e.2 ≠ dflt e.1))

/-- Write a number into a map with defaults: a value equal to its default is not listed. -/
def smapSet (dflt : Nat → Nat) (m : SMap Nat) (k v : Nat) : SMap Nat :=
  if v = dflt k then smapErase m k else smapPut m k v

/-- Update the first element that satisfies `p`. -/
def updFirst {α : Type} (p : α → Bool) (f : α → α) : List α → List α
  | [] => []
  | a :: t => if p a then f a :: t else a :: updFirst p f t

/-- The smallest number from `n` upwards that `used` does not contain, within `fuel` tries. -/
def firstFree (used : List Nat) : Nat → Nat → Nat
  | 0, n => n
  | fuel + 1, n => if used.contains n then firstFree used fuel (n + 1) else n

end Sys2Proof.Machine
end

