-- ==== Sys2Proof/Machine/Table.lean ====
section
/-! DEFINITION. The object dictionary's tables: every entry's type, size, access and default, as the chapters' dictionary
tables give them (R436-R438, R441). -/
namespace Sys2Proof.Machine

/-- One row of a dictionary table: `n` indexes from `lo`, `m` subindexes from `sub`; type code of R437, size in bytes (0
where it varies), access 1 ro, 2 rw, 3 wo, and whether it is writable over DMP only. -/
structure DRow where
  lo : Nat
  n : Nat
  sub : Nat
  m : Nat
  ty : Nat
  size : Nat
  acc : Nat
  dmp : Bool
  deriving DecidableEq, Repr

/-- A default other than zero. -/
structure DDefault where
  lo : Nat
  n : Nat
  sub : Nat
  m : Nat
  v : Nat
  deriving DecidableEq, Repr

/-- Rows of area 0x1000. -/
def dictRows1a : List DRow := [
  { lo := 0x1000, n := 1, sub := 0, m := 1, ty := 0x7, size := 4, acc := 1, dmp := false },
  { lo := 0x1008, n := 1, sub := 0, m := 1, ty := 0x9, size := 10, acc := 1, dmp := false },
  { lo := 0x1009, n := 1, sub := 0, m := 1, ty := 0x9, size := 3, acc := 1, dmp := false },
  { lo := 0x100A, n := 1, sub := 0, m := 1, ty := 0x9, size := 0, acc := 1, dmp := false },
  { lo := 0x1018, n := 1, sub := 0, m := 1, ty := 0x5, size := 1, acc := 1, dmp := false },
  { lo := 0x1018, n := 1, sub := 1, m := 1, ty := 0x7, size := 4, acc := 1, dmp := false },
  { lo := 0x1018, n := 1, sub := 2, m := 1, ty := 0x7, size := 4, acc := 1, dmp := false },
  { lo := 0x1018, n := 1, sub := 3, m := 1, ty := 0x7, size := 4, acc := 1, dmp := false },
  { lo := 0x1018, n := 1, sub := 4, m := 1, ty := 0x7, size := 4, acc := 1, dmp := false },
  { lo := 0x1200, n := 1, sub := 0, m := 1, ty := 0x5, size := 1, acc := 1, dmp := false },
  { lo := 0x1200, n := 1, sub := 1, m := 1, ty := 0x6, size := 2, acc := 2, dmp := true },
  { lo := 0x1200, n := 1, sub := 2, m := 1, ty := 0x1B, size := 8, acc := 2, dmp := true },
  { lo := 0x1200, n := 1, sub := 3, m := 1, ty := 0x1B, size := 8, acc := 2, dmp := true },
  { lo := 0x1200, n := 1, sub := 4, m := 1, ty := 0x1B, size := 8, acc := 2, dmp := true },
  { lo := 0x1200, n := 1, sub := 5, m := 1, ty := 0x1B, size := 8, acc := 2, dmp := true },
  { lo := 0x1200, n := 1, sub := 6, m := 1, ty := 0x1B, size := 8, acc := 2, dmp := true },
  { lo := 0x1200, n := 1, sub := 7, m := 1, ty := 0x5, size := 1, acc := 1, dmp := false },
  { lo := 0x1F50, n := 1, sub := 0, m := 1, ty := 0x5, size := 1, acc := 1, dmp := false },
  { lo := 0x1F50, n := 1, sub := 1, m := 1, ty := 0xF, size := 0, acc := 3, dmp := false },
  { lo := 0x1F51, n := 1, sub := 0, m := 1, ty := 0x5, size := 1, acc := 1, dmp := false },
  { lo := 0x1F51, n := 1, sub := 1, m := 1, ty := 0x5, size := 1, acc := 3, dmp := false },
  { lo := 0x1F52, n := 1, sub := 0, m := 1, ty := 0x5, size := 1, acc := 1, dmp := false },
  { lo := 0x1F53, n := 1, sub := 0, m := 1, ty := 0x5, size := 1, acc := 1, dmp := false },
  { lo := 0x1F60, n := 1, sub := 0, m := 1, ty := 0x5, size := 1, acc := 1, dmp := false },
  { lo := 0x1F60, n := 1, sub := 1, m := 5, ty := 0xA, size := 16, acc := 1, dmp := false },
  { lo := 0x1F61, n := 1, sub := 0, m := 1, ty := 0x5, size := 1, acc := 1, dmp := false }]

/-- Rows of area 0x2000. -/
def dictRows2a : List DRow := [
  { lo := 0x2401, n := 1, sub := 0, m := 1, ty := 0x5, size := 1, acc := 2, dmp := false },
  { lo := 0x2701, n := 1, sub := 0, m := 1, ty := 0x5, size := 1, acc := 2, dmp := false },
  { lo := 0x2702, n := 1, sub := 0, m := 1, ty := 0x5, size := 1, acc := 2, dmp := false },
  { lo := 0x2801, n := 1, sub := 0, m := 1, ty := 0x5, size := 1, acc := 2, dmp := false },
  { lo := 0x2901, n := 1, sub := 0, m := 1, ty := 0x5, size := 1, acc := 2, dmp := false },
  { lo := 0x2A01, n := 1, sub := 0, m := 1, ty := 0x5, size := 1, acc := 2, dmp := false },
  { lo := 0x2B01, n := 1, sub := 0, m := 1, ty := 0x5, size := 1, acc := 2, dmp := false },
  { lo := 0x2C01, n := 1, sub := 0, m := 1, ty := 0x5, size := 1, acc := 2, dmp := false },
  { lo := 0x2E01, n := 1, sub := 0, m := 1, ty := 0x5, size := 1, acc := 2, dmp := false },
  { lo := 0x2E02, n := 1, sub := 0, m := 1, ty := 0x5, size := 1, acc := 2, dmp := false },
  { lo := 0x2010, n := 64, sub := 0, m := 1, ty := 0x5, size := 1, acc := 1, dmp := false },
  { lo := 0x2010, n := 64, sub := 1, m := 1, ty := 0x1B, size := 8, acc := 2, dmp := false },
  { lo := 0x2010, n := 64, sub := 2, m := 1, ty := 0x7, size := 4, acc := 2, dmp := false },
  { lo := 0x2010, n := 64, sub := 3, m := 1, ty := 0x7, size := 4, acc := 2, dmp := false },
  { lo := 0x2010, n := 64, sub := 4, m := 1, ty := 0x7, size := 4, acc := 1, dmp := false },
  { lo := 0x2010, n := 64, sub := 5, m := 1, ty := 0x1B, size := 8, acc := 2, dmp := false },
  { lo := 0x2010, n := 64, sub := 6, m := 1, ty := 0x7, size := 4, acc := 2, dmp := false },
  { lo := 0x2010, n := 64, sub := 7, m := 1, ty := 0x7, size := 4, acc := 1, dmp := false },
  { lo := 0x2010, n := 64, sub := 8, m := 1, ty := 0x7, size := 4, acc := 2, dmp := false },
  { lo := 0x2010, n := 64, sub := 9, m := 1, ty := 0x5, size := 1, acc := 2, dmp := false },
  { lo := 0x2010, n := 64, sub := 10, m := 1, ty := 0x5, size := 1, acc := 2, dmp := false },
  { lo := 0x2002, n := 1, sub := 0, m := 1, ty := 0x7, size := 4, acc := 2, dmp := false },
  { lo := 0x2003, n := 1, sub := 0, m := 1, ty := 0x7, size := 4, acc := 1, dmp := false },
  { lo := 0x2102, n := 1, sub := 0, m := 1, ty := 0x7, size := 4, acc := 2, dmp := false },
  { lo := 0x2103, n := 1, sub := 0, m := 1, ty := 0x7, size := 4, acc := 2, dmp := false },
  { lo := 0x2104, n := 1, sub := 0, m := 1, ty := 0x7, size := 4, acc := 2, dmp := false },
  { lo := 0x2105, n := 1, sub := 0, m := 1, ty := 0x7, size := 4, acc := 2, dmp := false },
  { lo := 0x2106, n := 1, sub := 0, m := 1, ty := 0x7, size := 4, acc := 1, dmp := false },
  { lo := 0x2107, n := 1, sub := 0, m := 1, ty := 0x7, size := 4, acc := 1, dmp := false },
  { lo := 0x2203, n := 1, sub := 0, m := 1, ty := 0x7, size := 4, acc := 2, dmp := false },
  { lo := 0x2220, n := 16, sub := 0, m := 1, ty := 0x5, size := 1, acc := 1, dmp := false },
  { lo := 0x2220, n := 16, sub := 1, m := 1, ty := 0x5, size := 1, acc := 2, dmp := false },
  { lo := 0x2220, n := 16, sub := 2, m := 1, ty := 0x7, size := 4, acc := 2, dmp := false },
  { lo := 0x2220, n := 16, sub := 3, m := 1, ty := 0x7, size := 4, acc := 2, dmp := false },
  { lo := 0x2210, n := 16, sub := 0, m := 1, ty := 0x5, size := 1, acc := 1, dmp := false },
  { lo := 0x2210, n := 16, sub := 1, m := 1, ty := 0x1B, size := 8, acc := 2, dmp := false },
  { lo := 0x2210, n := 16, sub := 2, m := 1, ty := 0x1B, size := 8, acc := 2, dmp := false },
  { lo := 0x2210, n := 16, sub := 3, m := 1, ty := 0x1B, size := 8, acc := 2, dmp := false },
  { lo := 0x2210, n := 16, sub := 4, m := 1, ty := 0x1B, size := 8, acc := 2, dmp := false },
  { lo := 0x2210, n := 16, sub := 5, m := 1, ty := 0x5, size := 1, acc := 2, dmp := false }]

/-- Rows of area 0x2000. -/
def dictRows2b : List DRow := [
  { lo := 0x2230, n := 16, sub := 0, m := 1, ty := 0x5, size := 1, acc := 1, dmp := false },
  { lo := 0x2230, n := 16, sub := 1, m := 1, ty := 0x1B, size := 8, acc := 2, dmp := false },
  { lo := 0x2230, n := 16, sub := 2, m := 1, ty := 0x1B, size := 8, acc := 2, dmp := false },
  { lo := 0x2230, n := 16, sub := 3, m := 1, ty := 0x1B, size := 8, acc := 2, dmp := false },
  { lo := 0x2230, n := 16, sub := 4, m := 1, ty := 0x7, size := 4, acc := 2, dmp := false },
  { lo := 0x2204, n := 1, sub := 1, m := 3, ty := 0x7, size := 4, acc := 1, dmp := false },
  { lo := 0x2302, n := 1, sub := 0, m := 1, ty := 0x6, size := 2, acc := 2, dmp := false },
  { lo := 0x2303, n := 1, sub := 0, m := 1, ty := 0x7, size := 4, acc := 2, dmp := false },
  { lo := 0x2304, n := 1, sub := 0, m := 1, ty := 0x7, size := 4, acc := 2, dmp := false },
  { lo := 0x2305, n := 1, sub := 0, m := 1, ty := 0x5, size := 1, acc := 2, dmp := false },
  { lo := 0x2306, n := 1, sub := 0, m := 1, ty := 0x7, size := 4, acc := 1, dmp := false },
  { lo := 0x2307, n := 1, sub := 0, m := 1, ty := 0x7, size := 4, acc := 1, dmp := false },
  { lo := 0x2308, n := 1, sub := 0, m := 1, ty := 0x7, size := 4, acc := 1, dmp := false },
  { lo := 0x2310, n := 32, sub := 0, m := 1, ty := 0x5, size := 1, acc := 1, dmp := false },
  { lo := 0x2310, n := 32, sub := 1, m := 1, ty := 0x5, size := 1, acc := 1, dmp := false },
  { lo := 0x2310, n := 32, sub := 2, m := 1, ty := 0x5, size := 1, acc := 1, dmp := false },
  { lo := 0x2310, n := 32, sub := 3, m := 1, ty := 0x7, size := 4, acc := 1, dmp := false },
  { lo := 0x2310, n := 32, sub := 4, m := 1, ty := 0x7, size := 4, acc := 1, dmp := false },
  { lo := 0x2310, n := 32, sub := 5, m := 1, ty := 0x7, size := 4, acc := 1, dmp := false },
  { lo := 0x2402, n := 1, sub := 0, m := 1, ty := 0x5, size := 1, acc := 1, dmp := false },
  { lo := 0x2402, n := 1, sub := 1, m := 1, ty := 0x1B, size := 8, acc := 2, dmp := false },
  { lo := 0x2402, n := 1, sub := 2, m := 1, ty := 0x7, size := 4, acc := 2, dmp := false },
  { lo := 0x2402, n := 1, sub := 3, m := 1, ty := 0x7, size := 4, acc := 1, dmp := false },
  { lo := 0x2402, n := 1, sub := 4, m := 1, ty := 0x7, size := 4, acc := 2, dmp := false },
  { lo := 0x2402, n := 1, sub := 5, m := 1, ty := 0x5, size := 1, acc := 2, dmp := false },
  { lo := 0x2402, n := 1, sub := 6, m := 1, ty := 0x5, size := 1, acc := 2, dmp := false },
  { lo := 0x2510, n := 16, sub := 0, m := 1, ty := 0x5, size := 1, acc := 1, dmp := false },
  { lo := 0x2510, n := 16, sub := 1, m := 1, ty := 0x5, size := 1, acc := 2, dmp := false },
  { lo := 0x2510, n := 16, sub := 2, m := 1, ty := 0x5, size := 1, acc := 2, dmp := false },
  { lo := 0x2510, n := 16, sub := 3, m := 1, ty := 0x6, size := 2, acc := 2, dmp := false },
  { lo := 0x2510, n := 16, sub := 4, m := 1, ty := 0x5, size := 1, acc := 2, dmp := false },
  { lo := 0x2510, n := 16, sub := 5, m := 1, ty := 0x5, size := 1, acc := 2, dmp := false },
  { lo := 0x2510, n := 16, sub := 6, m := 1, ty := 0x7, size := 4, acc := 2, dmp := false },
  { lo := 0x2510, n := 16, sub := 7, m := 1, ty := 0x1B, size := 8, acc := 2, dmp := false },
  { lo := 0x2510, n := 16, sub := 8, m := 1, ty := 0x7, size := 4, acc := 2, dmp := false },
  { lo := 0x2602, n := 1, sub := 0, m := 1, ty := 0x7, size := 4, acc := 2, dmp := false },
  { lo := 0x2603, n := 1, sub := 0, m := 1, ty := 0x5, size := 1, acc := 1, dmp := false },
  { lo := 0x2604, n := 1, sub := 0, m := 1, ty := 0x7, size := 4, acc := 1, dmp := false },
  { lo := 0x2605, n := 1, sub := 0, m := 1, ty := 0x5, size := 1, acc := 1, dmp := false },
  { lo := 0x2610, n := 64, sub := 0, m := 1, ty := 0x5, size := 1, acc := 1, dmp := false }]

/-- Rows of area 0x2000. -/
def dictRows2c : List DRow := [
  { lo := 0x2610, n := 64, sub := 1, m := 1, ty := 0x5, size := 1, acc := 1, dmp := false },
  { lo := 0x2610, n := 64, sub := 2, m := 1, ty := 0x5, size := 1, acc := 1, dmp := false },
  { lo := 0x2610, n := 64, sub := 3, m := 1, ty := 0x6, size := 2, acc := 1, dmp := false },
  { lo := 0x2610, n := 64, sub := 4, m := 1, ty := 0x7, size := 4, acc := 1, dmp := false },
  { lo := 0x2610, n := 64, sub := 5, m := 1, ty := 0x1B, size := 8, acc := 1, dmp := false },
  { lo := 0x2710, n := 16, sub := 0, m := 1, ty := 0x5, size := 1, acc := 1, dmp := false },
  { lo := 0x2710, n := 16, sub := 1, m := 1, ty := 0x5, size := 1, acc := 2, dmp := false },
  { lo := 0x2710, n := 16, sub := 2, m := 1, ty := 0x6, size := 2, acc := 2, dmp := false },
  { lo := 0x2710, n := 16, sub := 3, m := 1, ty := 0x6, size := 2, acc := 2, dmp := false },
  { lo := 0x2710, n := 16, sub := 4, m := 1, ty := 0x1B, size := 8, acc := 2, dmp := false },
  { lo := 0x2710, n := 16, sub := 5, m := 1, ty := 0x7, size := 4, acc := 2, dmp := false },
  { lo := 0x2703, n := 1, sub := 0, m := 1, ty := 0x5, size := 1, acc := 2, dmp := false },
  { lo := 0x2704, n := 1, sub := 0, m := 1, ty := 0x7, size := 4, acc := 2, dmp := false },
  { lo := 0x2705, n := 1, sub := 0, m := 1, ty := 0x5, size := 1, acc := 2, dmp := false },
  { lo := 0x2706, n := 1, sub := 1, m := 16, ty := 0x8, size := 4, acc := 1, dmp := false },
  { lo := 0x2707, n := 1, sub := 1, m := 16, ty := 0x8, size := 4, acc := 1, dmp := false },
  { lo := 0x2802, n := 1, sub := 0, m := 1, ty := 0x6, size := 2, acc := 2, dmp := false },
  { lo := 0x2803, n := 1, sub := 0, m := 1, ty := 0x6, size := 2, acc := 1, dmp := false },
  { lo := 0x2804, n := 1, sub := 0, m := 1, ty := 0x5, size := 1, acc := 1, dmp := false },
  { lo := 0x2902, n := 1, sub := 0, m := 1, ty := 0x7, size := 4, acc := 2, dmp := false },
  { lo := 0x2903, n := 1, sub := 0, m := 1, ty := 0x7, size := 4, acc := 2, dmp := false },
  { lo := 0x2A02, n := 1, sub := 0, m := 1, ty := 0x5, size := 1, acc := 2, dmp := false },
  { lo := 0x2F02, n := 1, sub := 0, m := 1, ty := 0x7, size := 4, acc := 2, dmp := false },
  { lo := 0x2F03, n := 1, sub := 0, m := 1, ty := 0x7, size := 4, acc := 2, dmp := false },
  { lo := 0x2F04, n := 1, sub := 0, m := 1, ty := 0x5, size := 1, acc := 2, dmp := false },
  { lo := 0x2F05, n := 1, sub := 0, m := 1, ty := 0xF, size := 32, acc := 2, dmp := false },
  { lo := 0x2F06, n := 1, sub := 0, m := 1, ty := 0x6, size := 2, acc := 1, dmp := false },
  { lo := 0x2F07, n := 1, sub := 0, m := 1, ty := 0x7, size := 4, acc := 1, dmp := false },
  { lo := 0x2F08, n := 1, sub := 0, m := 1, ty := 0x6, size := 2, acc := 2, dmp := false },
  { lo := 0x2F10, n := 16, sub := 0, m := 1, ty := 0x5, size := 1, acc := 1, dmp := false },
  { lo := 0x2F10, n := 16, sub := 1, m := 1, ty := 0x1B, size := 8, acc := 2, dmp := false },
  { lo := 0x2F10, n := 16, sub := 2, m := 1, ty := 0x5, size := 1, acc := 2, dmp := false },
  { lo := 0x2F10, n := 16, sub := 3, m := 1, ty := 0x1B, size := 8, acc := 2, dmp := false },
  { lo := 0x2F10, n := 16, sub := 4, m := 1, ty := 0x1B, size := 8, acc := 2, dmp := false },
  { lo := 0x2F10, n := 16, sub := 5, m := 1, ty := 0x5, size := 1, acc := 1, dmp := false },
  { lo := 0x2F10, n := 16, sub := 6, m := 1, ty := 0x1B, size := 8, acc := 2, dmp := false },
  { lo := 0x2F10, n := 16, sub := 7, m := 1, ty := 0x1B, size := 8, acc := 1, dmp := false },
  { lo := 0x2F10, n := 16, sub := 8, m := 1, ty := 0x5, size := 1, acc := 1, dmp := false },
  { lo := 0x2F30, n := 16, sub := 0, m := 1, ty := 0x5, size := 1, acc := 1, dmp := false },
  { lo := 0x2F30, n := 16, sub := 1, m := 1, ty := 0x5, size := 1, acc := 2, dmp := false }]

/-- Rows of area 0x2000. -/
def dictRows2d : List DRow := [
  { lo := 0x2F30, n := 16, sub := 2, m := 1, ty := 0x7, size := 4, acc := 2, dmp := false },
  { lo := 0x2F30, n := 16, sub := 3, m := 1, ty := 0x6, size := 2, acc := 2, dmp := false },
  { lo := 0x2F30, n := 16, sub := 4, m := 1, ty := 0x1B, size := 8, acc := 2, dmp := false },
  { lo := 0x2F30, n := 16, sub := 5, m := 1, ty := 0x7, size := 4, acc := 2, dmp := false },
  { lo := 0x2F30, n := 16, sub := 6, m := 1, ty := 0x1B, size := 8, acc := 2, dmp := false },
  { lo := 0x2F30, n := 16, sub := 7, m := 1, ty := 0xF, size := 32, acc := 2, dmp := false },
  { lo := 0x2F30, n := 16, sub := 8, m := 1, ty := 0x5, size := 1, acc := 1, dmp := false },
  { lo := 0x2D40, n := 1, sub := 0, m := 1, ty := 0x5, size := 1, acc := 2, dmp := false },
  { lo := 0x2D42, n := 1, sub := 1, m := 16, ty := 0x6, size := 2, acc := 2, dmp := false },
  { lo := 0x2D44, n := 1, sub := 1, m := 16, ty := 0x5, size := 1, acc := 2, dmp := false },
  { lo := 0x2D50, n := 1, sub := 1, m := 16, ty := 0x6, size := 2, acc := 1, dmp := false },
  { lo := 0x2D51, n := 1, sub := 1, m := 16, ty := 0x3, size := 2, acc := 1, dmp := false },
  { lo := 0x2B02, n := 1, sub := 0, m := 1, ty := 0x7, size := 4, acc := 2, dmp := false },
  { lo := 0x2B03, n := 1, sub := 0, m := 1, ty := 0x6, size := 2, acc := 2, dmp := false },
  { lo := 0x2B04, n := 1, sub := 0, m := 1, ty := 0x6, size := 2, acc := 2, dmp := false },
  { lo := 0x2B05, n := 1, sub := 0, m := 1, ty := 0x7, size := 4, acc := 1, dmp := false },
  { lo := 0x2B06, n := 1, sub := 0, m := 1, ty := 0x7, size := 4, acc := 1, dmp := false },
  { lo := 0x2B07, n := 1, sub := 0, m := 1, ty := 0x6, size := 2, acc := 1, dmp := false },
  { lo := 0x2B08, n := 1, sub := 0, m := 1, ty := 0xF, size := 24, acc := 2, dmp := false },
  { lo := 0x2C10, n := 16, sub := 0, m := 1, ty := 0x5, size := 1, acc := 1, dmp := false },
  { lo := 0x2C10, n := 16, sub := 1, m := 1, ty := 0x5, size := 1, acc := 1, dmp := false },
  { lo := 0x2C10, n := 16, sub := 2, m := 1, ty := 0x1B, size := 8, acc := 1, dmp := false },
  { lo := 0x2C10, n := 16, sub := 3, m := 1, ty := 0x7, size := 4, acc := 1, dmp := false },
  { lo := 0x2C10, n := 16, sub := 4, m := 1, ty := 0x1B, size := 8, acc := 1, dmp := false },
  { lo := 0x2C10, n := 16, sub := 5, m := 1, ty := 0x1B, size := 8, acc := 1, dmp := false },
  { lo := 0x2C10, n := 16, sub := 6, m := 1, ty := 0x1B, size := 8, acc := 1, dmp := false },
  { lo := 0x2E03, n := 1, sub := 0, m := 1, ty := 0x5, size := 1, acc := 1, dmp := false },
  { lo := 0x2240, n := 16, sub := 0, m := 1, ty := 0x5, size := 1, acc := 3, dmp := false },
  { lo := 0x2250, n := 16, sub := 0, m := 1, ty := 0x7, size := 4, acc := 1, dmp := false }]

/-- Rows of area 0x3000. -/
def dictRows3a : List DRow := [
  { lo := 0x3004, n := 1, sub := 0, m := 1, ty := 0x5, size := 1, acc := 1, dmp := false },
  { lo := 0x3004, n := 1, sub := 1, m := 16, ty := 0x5, size := 1, acc := 2, dmp := false },
  { lo := 0x3005, n := 1, sub := 0, m := 1, ty := 0x5, size := 1, acc := 1, dmp := false },
  { lo := 0x3005, n := 1, sub := 1, m := 16, ty := 0x1B, size := 8, acc := 2, dmp := false },
  { lo := 0x3010, n := 16, sub := 0, m := 1, ty := 0x5, size := 1, acc := 1, dmp := false },
  { lo := 0x3010, n := 16, sub := 1, m := 1, ty := 0x5, size := 1, acc := 2, dmp := false },
  { lo := 0x3010, n := 16, sub := 2, m := 1, ty := 0x5, size := 1, acc := 2, dmp := false },
  { lo := 0x3010, n := 16, sub := 3, m := 1, ty := 0x5, size := 1, acc := 2, dmp := false },
  { lo := 0x3010, n := 16, sub := 4, m := 1, ty := 0x5, size := 1, acc := 2, dmp := false },
  { lo := 0x3010, n := 16, sub := 5, m := 1, ty := 0x7, size := 4, acc := 2, dmp := false },
  { lo := 0x3010, n := 16, sub := 6, m := 1, ty := 0x5, size := 1, acc := 2, dmp := false },
  { lo := 0x3010, n := 16, sub := 7, m := 1, ty := 0x1B, size := 8, acc := 2, dmp := false },
  { lo := 0x3010, n := 16, sub := 8, m := 1, ty := 0x1B, size := 8, acc := 2, dmp := false },
  { lo := 0x3010, n := 16, sub := 9, m := 1, ty := 0x1B, size := 8, acc := 2, dmp := false },
  { lo := 0x3010, n := 16, sub := 10, m := 1, ty := 0x1B, size := 8, acc := 2, dmp := false },
  { lo := 0x3010, n := 16, sub := 11, m := 1, ty := 0x5, size := 1, acc := 1, dmp := false },
  { lo := 0x3030, n := 16, sub := 0, m := 1, ty := 0x5, size := 1, acc := 1, dmp := false },
  { lo := 0x3030, n := 16, sub := 1, m := 1, ty := 0x1B, size := 8, acc := 2, dmp := false },
  { lo := 0x3030, n := 16, sub := 2, m := 1, ty := 0x1B, size := 8, acc := 2, dmp := false },
  { lo := 0x3030, n := 16, sub := 3, m := 1, ty := 0x1B, size := 8, acc := 2, dmp := false },
  { lo := 0x3030, n := 16, sub := 4, m := 1, ty := 0x1B, size := 8, acc := 2, dmp := false },
  { lo := 0x3030, n := 16, sub := 5, m := 1, ty := 0x5, size := 1, acc := 1, dmp := false },
  { lo := 0x3030, n := 16, sub := 6, m := 1, ty := 0x1B, size := 8, acc := 1, dmp := false },
  { lo := 0x3030, n := 16, sub := 7, m := 1, ty := 0x1B, size := 8, acc := 1, dmp := false },
  { lo := 0x3030, n := 16, sub := 8, m := 1, ty := 0x5, size := 1, acc := 1, dmp := false },
  { lo := 0x3030, n := 16, sub := 9, m := 1, ty := 0x6, size := 2, acc := 1, dmp := false },
  { lo := 0x3040, n := 16, sub := 0, m := 1, ty := 0x5, size := 1, acc := 1, dmp := false },
  { lo := 0x3040, n := 16, sub := 1, m := 1, ty := 0xF, size := 256, acc := 2, dmp := false },
  { lo := 0x3040, n := 16, sub := 2, m := 1, ty := 0x5, size := 1, acc := 1, dmp := false },
  { lo := 0x3040, n := 16, sub := 3, m := 1, ty := 0x5, size := 1, acc := 1, dmp := false },
  { lo := 0x3040, n := 16, sub := 4, m := 1, ty := 0x7, size := 4, acc := 1, dmp := false },
  { lo := 0x3040, n := 16, sub := 5, m := 1, ty := 0x1B, size := 8, acc := 1, dmp := false },
  { lo := 0x3040, n := 16, sub := 6, m := 1, ty := 0xA, size := 32, acc := 1, dmp := false },
  { lo := 0x3040, n := 16, sub := 7, m := 1, ty := 0x5, size := 1, acc := 1, dmp := false },
  { lo := 0x3040, n := 16, sub := 8, m := 1, ty := 0x1B, size := 8, acc := 1, dmp := false },
  { lo := 0x3006, n := 1, sub := 0, m := 1, ty := 0x5, size := 1, acc := 2, dmp := false },
  { lo := 0x3020, n := 16, sub := 0, m := 1, ty := 0x5, size := 1, acc := 1, dmp := false },
  { lo := 0x3020, n := 16, sub := 1, m := 1, ty := 0xF, size := 64, acc := 2, dmp := false },
  { lo := 0x3020, n := 16, sub := 2, m := 1, ty := 0x5, size := 1, acc := 3, dmp := false },
  { lo := 0x3020, n := 16, sub := 3, m := 1, ty := 0x5, size := 1, acc := 1, dmp := false }]

/-- Rows of area 0x3000. -/
def dictRows3b : List DRow := [
  { lo := 0x3020, n := 16, sub := 4, m := 1, ty := 0x5, size := 1, acc := 1, dmp := false }]

/-- Rows of area 0x4000. -/
def dictRows4a : List DRow := [
  { lo := 0x4001, n := 1, sub := 0, m := 1, ty := 0x6, size := 2, acc := 2, dmp := false },
  { lo := 0x4002, n := 1, sub := 0, m := 1, ty := 0x5, size := 1, acc := 1, dmp := false },
  { lo := 0x4002, n := 1, sub := 1, m := 1, ty := 0x7, size := 4, acc := 2, dmp := false },
  { lo := 0x4002, n := 1, sub := 2, m := 1, ty := 0x7, size := 4, acc := 2, dmp := false },
  { lo := 0x4002, n := 1, sub := 3, m := 1, ty := 0x7, size := 4, acc := 2, dmp := false },
  { lo := 0x4002, n := 1, sub := 4, m := 1, ty := 0x7, size := 4, acc := 2, dmp := false },
  { lo := 0x4003, n := 1, sub := 0, m := 1, ty := 0x6, size := 2, acc := 2, dmp := false },
  { lo := 0x4004, n := 1, sub := 0, m := 1, ty := 0x7, size := 4, acc := 2, dmp := false },
  { lo := 0x4010, n := 16, sub := 0, m := 1, ty := 0x5, size := 1, acc := 1, dmp := false },
  { lo := 0x4010, n := 16, sub := 1, m := 19, ty := 0x6, size := 2, acc := 2, dmp := false },
  { lo := 0x4010, n := 16, sub := 33, m := 19, ty := 0x7, size := 4, acc := 2, dmp := false }]

/-- Rows of area 0x5000. -/
def dictRows5a : List DRow := [
  { lo := 0x5001, n := 1, sub := 0, m := 1, ty := 0xA, size := 12, acc := 1, dmp := false },
  { lo := 0x5002, n := 1, sub := 0, m := 1, ty := 0xA, size := 12, acc := 2, dmp := false },
  { lo := 0x5003, n := 1, sub := 0, m := 1, ty := 0x5, size := 1, acc := 2, dmp := false },
  { lo := 0x5004, n := 1, sub := 0, m := 1, ty := 0x7, size := 4, acc := 2, dmp := false },
  { lo := 0x5005, n := 1, sub := 0, m := 1, ty := 0x7, size := 4, acc := 1, dmp := false },
  { lo := 0x5006, n := 1, sub := 0, m := 1, ty := 0x5, size := 1, acc := 1, dmp := false },
  { lo := 0x5007, n := 1, sub := 0, m := 1, ty := 0x5, size := 1, acc := 2, dmp := false },
  { lo := 0x5008, n := 1, sub := 0, m := 1, ty := 0x8, size := 4, acc := 1, dmp := false },
  { lo := 0x5009, n := 1, sub := 0, m := 1, ty := 0x7, size := 4, acc := 2, dmp := false },
  { lo := 0x500A, n := 1, sub := 1, m := 2, ty := 0x6, size := 2, acc := 2, dmp := false },
  { lo := 0x500B, n := 1, sub := 1, m := 2, ty := 0x6, size := 2, acc := 2, dmp := false },
  { lo := 0x500C, n := 1, sub := 0, m := 1, ty := 0xA, size := 8, acc := 1, dmp := false },
  { lo := 0x500D, n := 1, sub := 0, m := 1, ty := 0x5, size := 1, acc := 1, dmp := false },
  { lo := 0x500E, n := 1, sub := 0, m := 1, ty := 0x1B, size := 8, acc := 2, dmp := false },
  { lo := 0x500F, n := 1, sub := 0, m := 1, ty := 0xF, size := 0, acc := 1, dmp := false },
  { lo := 0x5010, n := 1, sub := 0, m := 1, ty := 0xA, size := 12, acc := 3, dmp := false }]

/-- Rows of area 0x6000. -/
def dictRows6a : List DRow := [
  { lo := 0x6001, n := 1, sub := 0, m := 1, ty := 0x1B, size := 8, acc := 2, dmp := false },
  { lo := 0x6002, n := 1, sub := 0, m := 1, ty := 0x7, size := 4, acc := 1, dmp := false },
  { lo := 0x6003, n := 1, sub := 0, m := 1, ty := 0x7, size := 4, acc := 2, dmp := false },
  { lo := 0x6004, n := 1, sub := 0, m := 1, ty := 0xF, size := 0, acc := 1, dmp := false },
  { lo := 0x6005, n := 1, sub := 0, m := 1, ty := 0x1B, size := 8, acc := 2, dmp := false },
  { lo := 0x6006, n := 1, sub := 0, m := 1, ty := 0x1B, size := 8, acc := 1, dmp := false },
  { lo := 0x6010, n := 1, sub := 0, m := 1, ty := 0x5, size := 1, acc := 1, dmp := false },
  { lo := 0x6010, n := 1, sub := 1, m := 1, ty := 0x5, size := 1, acc := 1, dmp := false },
  { lo := 0x6010, n := 1, sub := 2, m := 1, ty := 0x5, size := 1, acc := 1, dmp := false },
  { lo := 0x6010, n := 1, sub := 3, m := 1, ty := 0x7, size := 4, acc := 1, dmp := false },
  { lo := 0x6010, n := 1, sub := 4, m := 1, ty := 0x1B, size := 8, acc := 1, dmp := false },
  { lo := 0x6010, n := 1, sub := 5, m := 1, ty := 0x1B, size := 8, acc := 1, dmp := false },
  { lo := 0x6010, n := 1, sub := 6, m := 1, ty := 0x5, size := 1, acc := 2, dmp := true },
  { lo := 0x6011, n := 1, sub := 0, m := 1, ty := 0x6, size := 2, acc := 2, dmp := true },
  { lo := 0x6012, n := 1, sub := 0, m := 1, ty := 0xA, size := 20, acc := 1, dmp := false }]

/-- Rows of area 0x7000. -/
def dictRows7a : List DRow := [
  { lo := 0x7000, n := 1, sub := 1, m := 1, ty := 0x1B, size := 8, acc := 1, dmp := false },
  { lo := 0x7000, n := 1, sub := 2, m := 1, ty := 0x1B, size := 8, acc := 1, dmp := false },
  { lo := 0x7000, n := 1, sub := 3, m := 1, ty := 0x1B, size := 8, acc := 1, dmp := false },
  { lo := 0x7000, n := 1, sub := 4, m := 1, ty := 0x1B, size := 8, acc := 1, dmp := false },
  { lo := 0x7000, n := 1, sub := 5, m := 1, ty := 0x1B, size := 8, acc := 1, dmp := false },
  { lo := 0x7000, n := 1, sub := 6, m := 1, ty := 0x1B, size := 8, acc := 1, dmp := false },
  { lo := 0x7000, n := 1, sub := 7, m := 1, ty := 0x1B, size := 8, acc := 1, dmp := false },
  { lo := 0x7000, n := 1, sub := 8, m := 1, ty := 0x1B, size := 8, acc := 1, dmp := false },
  { lo := 0x7000, n := 1, sub := 9, m := 1, ty := 0x1B, size := 8, acc := 1, dmp := false },
  { lo := 0x7000, n := 1, sub := 10, m := 1, ty := 0x1B, size := 8, acc := 1, dmp := false },
  { lo := 0x7030, n := 1, sub := 1, m := 3, ty := 0x1B, size := 8, acc := 1, dmp := false },
  { lo := 0x7030, n := 1, sub := 4, m := 3, ty := 0x1B, size := 8, acc := 1, dmp := false },
  { lo := 0x7030, n := 1, sub := 7, m := 3, ty := 0x1B, size := 8, acc := 1, dmp := false },
  { lo := 0x7030, n := 1, sub := 10, m := 3, ty := 0x1B, size := 8, acc := 1, dmp := false },
  { lo := 0x7030, n := 1, sub := 13, m := 3, ty := 0x1B, size := 8, acc := 1, dmp := false },
  { lo := 0x7030, n := 1, sub := 16, m := 1, ty := 0x1B, size := 8, acc := 1, dmp := false },
  { lo := 0x7031, n := 1, sub := 1, m := 16, ty := 0x1B, size := 8, acc := 1, dmp := false },
  { lo := 0x7032, n := 1, sub := 1, m := 16, ty := 0x1B, size := 8, acc := 1, dmp := false },
  { lo := 0x7033, n := 1, sub := 1, m := 16, ty := 0x1B, size := 8, acc := 1, dmp := false },
  { lo := 0x7035, n := 1, sub := 1, m := 1, ty := 0x1B, size := 8, acc := 1, dmp := false },
  { lo := 0x7035, n := 1, sub := 2, m := 1, ty := 0x1B, size := 8, acc := 1, dmp := false },
  { lo := 0x7035, n := 1, sub := 3, m := 1, ty := 0x1B, size := 8, acc := 1, dmp := false },
  { lo := 0x7035, n := 1, sub := 4, m := 1, ty := 0x1B, size := 8, acc := 1, dmp := false },
  { lo := 0x7040, n := 1, sub := 1, m := 1, ty := 0x1B, size := 8, acc := 1, dmp := false },
  { lo := 0x7040, n := 1, sub := 2, m := 1, ty := 0x1B, size := 8, acc := 1, dmp := false },
  { lo := 0x7040, n := 1, sub := 3, m := 1, ty := 0x1B, size := 8, acc := 1, dmp := false },
  { lo := 0x7040, n := 1, sub := 4, m := 1, ty := 0x1B, size := 8, acc := 1, dmp := false },
  { lo := 0x7040, n := 1, sub := 5, m := 1, ty := 0x1B, size := 8, acc := 1, dmp := false },
  { lo := 0x7050, n := 1, sub := 1, m := 1, ty := 0x1B, size := 8, acc := 1, dmp := false },
  { lo := 0x7050, n := 1, sub := 2, m := 1, ty := 0x1B, size := 8, acc := 1, dmp := false },
  { lo := 0x7050, n := 1, sub := 3, m := 1, ty := 0x1B, size := 8, acc := 1, dmp := false },
  { lo := 0x7050, n := 1, sub := 4, m := 1, ty := 0x1B, size := 8, acc := 1, dmp := false },
  { lo := 0x7050, n := 1, sub := 5, m := 1, ty := 0x1B, size := 8, acc := 1, dmp := false },
  { lo := 0x7050, n := 1, sub := 6, m := 1, ty := 0x1B, size := 8, acc := 1, dmp := false },
  { lo := 0x7050, n := 1, sub := 7, m := 1, ty := 0x1B, size := 8, acc := 1, dmp := false },
  { lo := 0x7051, n := 1, sub := 1, m := 1, ty := 0x1B, size := 8, acc := 1, dmp := false },
  { lo := 0x7051, n := 1, sub := 2, m := 1, ty := 0x1B, size := 8, acc := 1, dmp := false },
  { lo := 0x7051, n := 1, sub := 3, m := 1, ty := 0x1B, size := 8, acc := 1, dmp := false },
  { lo := 0x7051, n := 1, sub := 4, m := 1, ty := 0x1B, size := 8, acc := 1, dmp := false },
  { lo := 0x7051, n := 1, sub := 5, m := 1, ty := 0x1B, size := 8, acc := 1, dmp := false }]

/-- Rows of area 0x7000. -/
def dictRows7b : List DRow := [
  { lo := 0x7060, n := 1, sub := 1, m := 1, ty := 0x1B, size := 8, acc := 1, dmp := false },
  { lo := 0x7060, n := 1, sub := 2, m := 1, ty := 0x1B, size := 8, acc := 1, dmp := false },
  { lo := 0x7060, n := 1, sub := 3, m := 1, ty := 0x1B, size := 8, acc := 1, dmp := false },
  { lo := 0x7060, n := 1, sub := 4, m := 1, ty := 0x1B, size := 8, acc := 1, dmp := false },
  { lo := 0x7060, n := 1, sub := 5, m := 1, ty := 0x1B, size := 8, acc := 1, dmp := false },
  { lo := 0x7060, n := 1, sub := 6, m := 1, ty := 0x1B, size := 8, acc := 1, dmp := false },
  { lo := 0x7060, n := 1, sub := 7, m := 1, ty := 0x1B, size := 8, acc := 1, dmp := false },
  { lo := 0x7060, n := 1, sub := 8, m := 1, ty := 0x1B, size := 8, acc := 1, dmp := false },
  { lo := 0x7070, n := 1, sub := 1, m := 1, ty := 0x1B, size := 8, acc := 1, dmp := false },
  { lo := 0x7070, n := 1, sub := 2, m := 1, ty := 0x1B, size := 8, acc := 1, dmp := false },
  { lo := 0x7070, n := 1, sub := 3, m := 1, ty := 0x1B, size := 8, acc := 1, dmp := false },
  { lo := 0x7070, n := 1, sub := 4, m := 1, ty := 0x1B, size := 8, acc := 1, dmp := false },
  { lo := 0x7070, n := 1, sub := 5, m := 1, ty := 0x1B, size := 8, acc := 1, dmp := false },
  { lo := 0x7070, n := 1, sub := 6, m := 1, ty := 0x1B, size := 8, acc := 1, dmp := false },
  { lo := 0x7070, n := 1, sub := 7, m := 1, ty := 0x1B, size := 8, acc := 1, dmp := false },
  { lo := 0x7070, n := 1, sub := 8, m := 1, ty := 0x1B, size := 8, acc := 1, dmp := false },
  { lo := 0x7080, n := 1, sub := 1, m := 1, ty := 0x1B, size := 8, acc := 1, dmp := false },
  { lo := 0x7080, n := 1, sub := 2, m := 1, ty := 0x1B, size := 8, acc := 1, dmp := false },
  { lo := 0x7080, n := 1, sub := 3, m := 1, ty := 0x1B, size := 8, acc := 1, dmp := false },
  { lo := 0x7080, n := 1, sub := 4, m := 1, ty := 0x1B, size := 8, acc := 1, dmp := false },
  { lo := 0x7080, n := 1, sub := 5, m := 1, ty := 0x1B, size := 8, acc := 1, dmp := false },
  { lo := 0x7080, n := 1, sub := 6, m := 1, ty := 0x1B, size := 8, acc := 1, dmp := false },
  { lo := 0x7080, n := 1, sub := 7, m := 1, ty := 0x1B, size := 8, acc := 1, dmp := false },
  { lo := 0x7081, n := 1, sub := 1, m := 12, ty := 0x1B, size := 8, acc := 1, dmp := false },
  { lo := 0x7082, n := 1, sub := 1, m := 12, ty := 0x1B, size := 8, acc := 1, dmp := false },
  { lo := 0x7090, n := 1, sub := 1, m := 1, ty := 0x1B, size := 8, acc := 1, dmp := false },
  { lo := 0x7090, n := 1, sub := 2, m := 1, ty := 0x1B, size := 8, acc := 1, dmp := false },
  { lo := 0x7090, n := 1, sub := 3, m := 1, ty := 0x1B, size := 8, acc := 1, dmp := false },
  { lo := 0x7090, n := 1, sub := 4, m := 1, ty := 0x1B, size := 8, acc := 1, dmp := false },
  { lo := 0x7090, n := 1, sub := 5, m := 1, ty := 0x1B, size := 8, acc := 1, dmp := false },
  { lo := 0x7090, n := 1, sub := 6, m := 1, ty := 0x1B, size := 8, acc := 1, dmp := false },
  { lo := 0x7090, n := 1, sub := 7, m := 1, ty := 0x1B, size := 8, acc := 1, dmp := false },
  { lo := 0x7090, n := 1, sub := 8, m := 1, ty := 0x1B, size := 8, acc := 1, dmp := false },
  { lo := 0x7090, n := 1, sub := 9, m := 1, ty := 0x1B, size := 8, acc := 1, dmp := false },
  { lo := 0x7090, n := 1, sub := 10, m := 1, ty := 0x1B, size := 8, acc := 1, dmp := false },
  { lo := 0x70A0, n := 1, sub := 1, m := 1, ty := 0x1B, size := 8, acc := 1, dmp := false },
  { lo := 0x70A0, n := 1, sub := 2, m := 1, ty := 0x1B, size := 8, acc := 1, dmp := false },
  { lo := 0x70A0, n := 1, sub := 3, m := 1, ty := 0x1B, size := 8, acc := 1, dmp := false },
  { lo := 0x70A0, n := 1, sub := 4, m := 1, ty := 0x1B, size := 8, acc := 1, dmp := false },
  { lo := 0x70A0, n := 1, sub := 5, m := 1, ty := 0x1B, size := 8, acc := 1, dmp := false }]

/-- Rows of area 0x7000. -/
def dictRows7c : List DRow := [
  { lo := 0x70A0, n := 1, sub := 6, m := 1, ty := 0x1B, size := 8, acc := 1, dmp := false },
  { lo := 0x70A1, n := 1, sub := 1, m := 1, ty := 0x1B, size := 8, acc := 1, dmp := false },
  { lo := 0x70A1, n := 1, sub := 2, m := 1, ty := 0x1B, size := 8, acc := 1, dmp := false },
  { lo := 0x70A1, n := 1, sub := 3, m := 1, ty := 0x1B, size := 8, acc := 1, dmp := false },
  { lo := 0x70A1, n := 1, sub := 4, m := 1, ty := 0x1B, size := 8, acc := 1, dmp := false },
  { lo := 0x70A1, n := 1, sub := 5, m := 1, ty := 0x1B, size := 8, acc := 1, dmp := false },
  { lo := 0x70A1, n := 1, sub := 6, m := 1, ty := 0x1B, size := 8, acc := 1, dmp := false },
  { lo := 0x70A1, n := 1, sub := 7, m := 1, ty := 0x1B, size := 8, acc := 1, dmp := false },
  { lo := 0x70A1, n := 1, sub := 8, m := 1, ty := 0x1B, size := 8, acc := 1, dmp := false },
  { lo := 0x70A1, n := 1, sub := 9, m := 1, ty := 0x1B, size := 8, acc := 1, dmp := false },
  { lo := 0x70A1, n := 1, sub := 10, m := 1, ty := 0x1B, size := 8, acc := 1, dmp := false },
  { lo := 0x70B0, n := 1, sub := 1, m := 1, ty := 0x1B, size := 8, acc := 1, dmp := false },
  { lo := 0x70B0, n := 1, sub := 2, m := 1, ty := 0x1B, size := 8, acc := 1, dmp := false },
  { lo := 0x70B0, n := 1, sub := 3, m := 1, ty := 0x1B, size := 8, acc := 1, dmp := false },
  { lo := 0x70B0, n := 1, sub := 4, m := 1, ty := 0x1B, size := 8, acc := 1, dmp := false },
  { lo := 0x70B0, n := 1, sub := 5, m := 1, ty := 0x1B, size := 8, acc := 1, dmp := false },
  { lo := 0x70B0, n := 1, sub := 6, m := 1, ty := 0x1B, size := 8, acc := 1, dmp := false },
  { lo := 0x70B0, n := 1, sub := 7, m := 1, ty := 0x1B, size := 8, acc := 1, dmp := false },
  { lo := 0x70B0, n := 1, sub := 8, m := 1, ty := 0x1B, size := 8, acc := 1, dmp := false },
  { lo := 0x70B0, n := 1, sub := 9, m := 1, ty := 0x1B, size := 8, acc := 1, dmp := false },
  { lo := 0x70B0, n := 1, sub := 10, m := 1, ty := 0x1B, size := 8, acc := 1, dmp := false },
  { lo := 0x70B0, n := 1, sub := 11, m := 1, ty := 0x1B, size := 8, acc := 1, dmp := false },
  { lo := 0x70C0, n := 1, sub := 1, m := 1, ty := 0x1B, size := 8, acc := 1, dmp := false },
  { lo := 0x70C0, n := 1, sub := 2, m := 1, ty := 0x1B, size := 8, acc := 1, dmp := false },
  { lo := 0x70C0, n := 1, sub := 3, m := 1, ty := 0x1B, size := 8, acc := 1, dmp := false },
  { lo := 0x70C0, n := 1, sub := 4, m := 1, ty := 0x1B, size := 8, acc := 1, dmp := false },
  { lo := 0x70C0, n := 1, sub := 5, m := 1, ty := 0x1B, size := 8, acc := 1, dmp := false },
  { lo := 0x70C0, n := 1, sub := 6, m := 1, ty := 0x1B, size := 8, acc := 1, dmp := false },
  { lo := 0x70C0, n := 1, sub := 7, m := 1, ty := 0x1B, size := 8, acc := 1, dmp := false },
  { lo := 0x70C0, n := 1, sub := 8, m := 1, ty := 0x1B, size := 8, acc := 1, dmp := false },
  { lo := 0x70C0, n := 1, sub := 9, m := 1, ty := 0x1B, size := 8, acc := 1, dmp := false },
  { lo := 0x70C0, n := 1, sub := 10, m := 1, ty := 0x1B, size := 8, acc := 1, dmp := false },
  { lo := 0x70C0, n := 1, sub := 11, m := 1, ty := 0x1B, size := 8, acc := 1, dmp := false },
  { lo := 0x70C0, n := 1, sub := 12, m := 1, ty := 0x1B, size := 8, acc := 1, dmp := false },
  { lo := 0x70C0, n := 1, sub := 13, m := 1, ty := 0x1B, size := 8, acc := 1, dmp := false },
  { lo := 0x70C0, n := 1, sub := 14, m := 1, ty := 0x1B, size := 8, acc := 1, dmp := false },
  { lo := 0x70C0, n := 1, sub := 15, m := 1, ty := 0x1B, size := 8, acc := 1, dmp := false },
  { lo := 0x70D0, n := 1, sub := 1, m := 1, ty := 0x1B, size := 8, acc := 1, dmp := false },
  { lo := 0x70D0, n := 1, sub := 2, m := 1, ty := 0x1B, size := 8, acc := 1, dmp := false },
  { lo := 0x70D0, n := 1, sub := 3, m := 1, ty := 0x1B, size := 8, acc := 1, dmp := false }]

/-- Rows of area 0x7000. -/
def dictRows7d : List DRow := [
  { lo := 0x70D0, n := 1, sub := 4, m := 1, ty := 0x1B, size := 8, acc := 1, dmp := false },
  { lo := 0x70D0, n := 1, sub := 5, m := 1, ty := 0x1B, size := 8, acc := 1, dmp := false },
  { lo := 0x70D0, n := 1, sub := 6, m := 1, ty := 0x1B, size := 8, acc := 1, dmp := false },
  { lo := 0x70D0, n := 1, sub := 7, m := 1, ty := 0x1B, size := 8, acc := 1, dmp := false },
  { lo := 0x70D0, n := 1, sub := 8, m := 1, ty := 0x1B, size := 8, acc := 1, dmp := false },
  { lo := 0x70D0, n := 1, sub := 9, m := 1, ty := 0x1B, size := 8, acc := 1, dmp := false },
  { lo := 0x70E0, n := 1, sub := 1, m := 4, ty := 0x1B, size := 8, acc := 1, dmp := false },
  { lo := 0x70E0, n := 1, sub := 5, m := 1, ty := 0x1B, size := 8, acc := 1, dmp := false },
  { lo := 0x70E0, n := 1, sub := 6, m := 1, ty := 0x1B, size := 8, acc := 1, dmp := false },
  { lo := 0x70E1, n := 1, sub := 1, m := 16, ty := 0x1B, size := 8, acc := 1, dmp := false },
  { lo := 0x70F0, n := 1, sub := 1, m := 1, ty := 0x1B, size := 8, acc := 1, dmp := false },
  { lo := 0x70F0, n := 1, sub := 2, m := 1, ty := 0x1B, size := 8, acc := 1, dmp := false },
  { lo := 0x70F0, n := 1, sub := 3, m := 1, ty := 0x1B, size := 8, acc := 1, dmp := false },
  { lo := 0x70F0, n := 1, sub := 4, m := 1, ty := 0x1B, size := 8, acc := 1, dmp := false },
  { lo := 0x70F0, n := 1, sub := 5, m := 1, ty := 0x1B, size := 8, acc := 1, dmp := false },
  { lo := 0x70F0, n := 1, sub := 6, m := 1, ty := 0x1B, size := 8, acc := 1, dmp := false },
  { lo := 0x70F0, n := 1, sub := 7, m := 1, ty := 0x1B, size := 8, acc := 1, dmp := false },
  { lo := 0x70F0, n := 1, sub := 8, m := 1, ty := 0x1B, size := 8, acc := 1, dmp := false },
  { lo := 0x70F0, n := 1, sub := 9, m := 1, ty := 0x1B, size := 8, acc := 1, dmp := false },
  { lo := 0x70F0, n := 1, sub := 10, m := 1, ty := 0x1B, size := 8, acc := 1, dmp := false },
  { lo := 0x70F0, n := 1, sub := 11, m := 1, ty := 0x1B, size := 8, acc := 1, dmp := false },
  { lo := 0x70F0, n := 1, sub := 12, m := 1, ty := 0x1B, size := 8, acc := 1, dmp := false },
  { lo := 0x70F0, n := 1, sub := 13, m := 1, ty := 0x1B, size := 8, acc := 1, dmp := false },
  { lo := 0x70F0, n := 1, sub := 14, m := 1, ty := 0x1B, size := 8, acc := 1, dmp := false },
  { lo := 0x70F0, n := 1, sub := 15, m := 1, ty := 0x1B, size := 8, acc := 1, dmp := false },
  { lo := 0x70F0, n := 1, sub := 16, m := 1, ty := 0x1B, size := 8, acc := 1, dmp := false },
  { lo := 0x70F0, n := 1, sub := 17, m := 1, ty := 0x1B, size := 8, acc := 1, dmp := false },
  { lo := 0x70F0, n := 1, sub := 18, m := 1, ty := 0x1B, size := 8, acc := 1, dmp := false },
  { lo := 0x70F0, n := 1, sub := 19, m := 1, ty := 0x1B, size := 8, acc := 1, dmp := false },
  { lo := 0x70F0, n := 1, sub := 20, m := 1, ty := 0x1B, size := 8, acc := 1, dmp := false },
  { lo := 0x70F1, n := 1, sub := 1, m := 16, ty := 0x1B, size := 8, acc := 1, dmp := false },
  { lo := 0x70F2, n := 1, sub := 1, m := 16, ty := 0x1B, size := 8, acc := 1, dmp := false },
  { lo := 0x7100, n := 1, sub := 1, m := 1, ty := 0x1B, size := 8, acc := 1, dmp := false },
  { lo := 0x7100, n := 1, sub := 2, m := 1, ty := 0x1B, size := 8, acc := 1, dmp := false },
  { lo := 0x7100, n := 1, sub := 3, m := 1, ty := 0x1B, size := 8, acc := 1, dmp := false },
  { lo := 0x7100, n := 1, sub := 4, m := 1, ty := 0x1B, size := 8, acc := 1, dmp := false },
  { lo := 0x7110, n := 1, sub := 1, m := 1, ty := 0x1B, size := 8, acc := 1, dmp := false },
  { lo := 0x7110, n := 1, sub := 2, m := 1, ty := 0x1B, size := 8, acc := 1, dmp := false },
  { lo := 0x7110, n := 1, sub := 3, m := 1, ty := 0x1B, size := 8, acc := 1, dmp := false },
  { lo := 0x7110, n := 1, sub := 4, m := 1, ty := 0x1B, size := 8, acc := 1, dmp := false }]

/-- Rows of area 0x7000. -/
def dictRows7e : List DRow := [
  { lo := 0x7110, n := 1, sub := 5, m := 1, ty := 0x1B, size := 8, acc := 1, dmp := false },
  { lo := 0x7110, n := 1, sub := 6, m := 1, ty := 0x1B, size := 8, acc := 1, dmp := false },
  { lo := 0x7110, n := 1, sub := 7, m := 1, ty := 0x1B, size := 8, acc := 1, dmp := false },
  { lo := 0x7110, n := 1, sub := 8, m := 1, ty := 0x1B, size := 8, acc := 1, dmp := false },
  { lo := 0x7110, n := 1, sub := 9, m := 1, ty := 0x1B, size := 8, acc := 1, dmp := false },
  { lo := 0x7110, n := 1, sub := 10, m := 1, ty := 0x1B, size := 8, acc := 1, dmp := false },
  { lo := 0x7120, n := 1, sub := 1, m := 1, ty := 0x1B, size := 8, acc := 1, dmp := false },
  { lo := 0x7120, n := 1, sub := 2, m := 1, ty := 0x1B, size := 8, acc := 1, dmp := false },
  { lo := 0x7120, n := 1, sub := 3, m := 1, ty := 0x1B, size := 8, acc := 1, dmp := false },
  { lo := 0x7120, n := 1, sub := 4, m := 1, ty := 0x1B, size := 8, acc := 1, dmp := false },
  { lo := 0x7120, n := 1, sub := 5, m := 1, ty := 0x1B, size := 8, acc := 1, dmp := false },
  { lo := 0x7120, n := 1, sub := 6, m := 1, ty := 0x1B, size := 8, acc := 1, dmp := false },
  { lo := 0x7120, n := 1, sub := 7, m := 1, ty := 0x1B, size := 8, acc := 1, dmp := false },
  { lo := 0x7130, n := 1, sub := 1, m := 1, ty := 0x1B, size := 8, acc := 1, dmp := false },
  { lo := 0x7130, n := 1, sub := 2, m := 1, ty := 0x1B, size := 8, acc := 1, dmp := false },
  { lo := 0x7130, n := 1, sub := 3, m := 1, ty := 0x1B, size := 8, acc := 1, dmp := false }]

/-- Rows of area 0x8000. -/
def dictRows8a : List DRow := [
  { lo := 0x8001, n := 1, sub := 1, m := 1, ty := 0x1B, size := 8, acc := 1, dmp := false },
  { lo := 0x8001, n := 1, sub := 2, m := 1, ty := 0x1B, size := 8, acc := 1, dmp := false },
  { lo := 0x8001, n := 1, sub := 3, m := 1, ty := 0x1B, size := 8, acc := 1, dmp := false },
  { lo := 0x8001, n := 1, sub := 4, m := 1, ty := 0x1B, size := 8, acc := 1, dmp := false },
  { lo := 0x8001, n := 1, sub := 5, m := 1, ty := 0x1B, size := 8, acc := 1, dmp := false },
  { lo := 0x8001, n := 1, sub := 6, m := 1, ty := 0x1B, size := 8, acc := 1, dmp := false },
  { lo := 0x8001, n := 1, sub := 7, m := 1, ty := 0x1B, size := 8, acc := 1, dmp := false },
  { lo := 0x8001, n := 1, sub := 8, m := 1, ty := 0x1B, size := 8, acc := 1, dmp := false },
  { lo := 0x8001, n := 1, sub := 9, m := 1, ty := 0x1B, size := 8, acc := 1, dmp := false },
  { lo := 0x8001, n := 1, sub := 10, m := 1, ty := 0x1B, size := 8, acc := 1, dmp := false },
  { lo := 0x8001, n := 1, sub := 11, m := 1, ty := 0x1B, size := 8, acc := 1, dmp := false },
  { lo := 0x8001, n := 1, sub := 12, m := 1, ty := 0x1B, size := 8, acc := 1, dmp := false },
  { lo := 0x8001, n := 1, sub := 13, m := 1, ty := 0x1B, size := 8, acc := 1, dmp := false },
  { lo := 0x8001, n := 1, sub := 14, m := 1, ty := 0x1B, size := 8, acc := 1, dmp := false },
  { lo := 0x8001, n := 1, sub := 15, m := 1, ty := 0x1B, size := 8, acc := 1, dmp := false },
  { lo := 0x8001, n := 1, sub := 16, m := 1, ty := 0x1B, size := 8, acc := 1, dmp := false },
  { lo := 0x8010, n := 1, sub := 0, m := 1, ty := 0xA, size := 260, acc := 1, dmp := false },
  { lo := 0x8011, n := 1, sub := 1, m := 8, ty := 0xA, size := 132, acc := 1, dmp := false },
  { lo := 0x8012, n := 1, sub := 0, m := 1, ty := 0xA, size := 2052, acc := 1, dmp := false },
  { lo := 0x8100, n := 1, sub := 0, m := 1, ty := 0xF, size := 4096, acc := 2, dmp := false },
  { lo := 0x8101, n := 1, sub := 0, m := 1, ty := 0x5, size := 1, acc := 3, dmp := false },
  { lo := 0x8102, n := 1, sub := 0, m := 1, ty := 0x5, size := 1, acc := 1, dmp := false }]

/-- Rows of area 0x9000. -/
def dictRows9a : List DRow := [
  { lo := 0x9040, n := 1, sub := 0, m := 1, ty := 0x5, size := 1, acc := 1, dmp := false },
  { lo := 0x9041, n := 1, sub := 0, m := 1, ty := 0x7, size := 4, acc := 1, dmp := false },
  { lo := 0x9042, n := 1, sub := 1, m := 19, ty := 0x7, size := 4, acc := 1, dmp := false },
  { lo := 0x9001, n := 1, sub := 0, m := 1, ty := 0x5, size := 1, acc := 2, dmp := false },
  { lo := 0x9002, n := 1, sub := 0, m := 1, ty := 0x5, size := 1, acc := 1, dmp := false },
  { lo := 0x9003, n := 1, sub := 0, m := 1, ty := 0x5, size := 1, acc := 1, dmp := false },
  { lo := 0x9004, n := 1, sub := 0, m := 1, ty := 0x6, size := 2, acc := 1, dmp := false }]

/-- Rows of area 0xA000. -/
def dictRowsAa : List DRow := [
  { lo := 0xA010, n := 1, sub := 0, m := 1, ty := 0x5, size := 1, acc := 1, dmp := false },
  { lo := 0xA010, n := 1, sub := 1, m := 1, ty := 0x7, size := 4, acc := 2, dmp := true },
  { lo := 0xA010, n := 1, sub := 2, m := 1, ty := 0xA, size := 68, acc := 2, dmp := true },
  { lo := 0xA010, n := 1, sub := 3, m := 1, ty := 0x5, size := 1, acc := 2, dmp := true }]

/-- Defaults other than zero. -/
def dictDefaultsa : List DDefault := [
  { lo := 0x1018, n := 1, sub := 0, m := 1, v := 0x4 },
  { lo := 0x1018, n := 1, sub := 1, m := 1, v := 0x4A8B },
  { lo := 0x1018, n := 1, sub := 2, m := 1, v := 0x5632 },
  { lo := 0x1018, n := 1, sub := 3, m := 1, v := 0x20004 },
  { lo := 0x2401, n := 1, sub := 0, m := 1, v := 0x1 },
  { lo := 0x2701, n := 1, sub := 0, m := 1, v := 0x1 },
  { lo := 0x2702, n := 1, sub := 0, m := 1, v := 0x1 },
  { lo := 0x2801, n := 1, sub := 0, m := 1, v := 0x1 },
  { lo := 0x2901, n := 1, sub := 0, m := 1, v := 0x1 },
  { lo := 0x2A01, n := 1, sub := 0, m := 1, v := 0x1 },
  { lo := 0x2B01, n := 1, sub := 0, m := 1, v := 0x1 },
  { lo := 0x2C01, n := 1, sub := 0, m := 1, v := 0x1 },
  { lo := 0x2E01, n := 1, sub := 0, m := 1, v := 0x1 },
  { lo := 0x2E02, n := 1, sub := 0, m := 1, v := 0x1 },
  { lo := 0x2010, n := 64, sub := 0, m := 1, v := 0xA },
  { lo := 0x2010, n := 64, sub := 1, m := 1, v := 0xFFFFFFFFFFFF },
  { lo := 0x2010, n := 64, sub := 5, m := 1, v := 0xFFFFFFFFFFFF },
  { lo := 0x2002, n := 1, sub := 0, m := 1, v := 0x1000 },
  { lo := 0x2102, n := 1, sub := 0, m := 1, v := 0x20000 },
  { lo := 0x2103, n := 1, sub := 0, m := 1, v := 0x20000 },
  { lo := 0x2104, n := 1, sub := 0, m := 1, v := 0x10000 },
  { lo := 0x2105, n := 1, sub := 0, m := 1, v := 0x2000 },
  { lo := 0x2106, n := 1, sub := 0, m := 1, v := 0x2D800 },
  { lo := 0x2107, n := 1, sub := 0, m := 1, v := 0x2D800 },
  { lo := 0x2203, n := 1, sub := 0, m := 1, v := 0x64 },
  { lo := 0x2220, n := 16, sub := 0, m := 1, v := 0x3 },
  { lo := 0x2220, n := 16, sub := 1, m := 1, v := 0x1 },
  { lo := 0x2210, n := 16, sub := 0, m := 1, v := 0x5 },
  { lo := 0x2210, n := 16, sub := 1, m := 1, v := 0xFFFFFFFFFFFF },
  { lo := 0x2230, n := 16, sub := 0, m := 1, v := 0x4 },
  { lo := 0x2230, n := 16, sub := 1, m := 1, v := 0xFFFFFFFFFFFF },
  { lo := 0x3004, n := 1, sub := 0, m := 1, v := 0x10 },
  { lo := 0x3005, n := 1, sub := 0, m := 1, v := 0x10 },
  { lo := 0x2305, n := 1, sub := 0, m := 1, v := 0x2 },
  { lo := 0x2306, n := 1, sub := 0, m := 1, v := 0x800 },
  { lo := 0x2307, n := 1, sub := 0, m := 1, v := 0x800 },
  { lo := 0x2310, n := 32, sub := 0, m := 1, v := 0x5 },
  { lo := 0x2402, n := 1, sub := 0, m := 1, v := 0x6 },
  { lo := 0x2402, n := 1, sub := 1, m := 1, v := 0xFFFFFFFFFFFF },
  { lo := 0x2510, n := 16, sub := 0, m := 1, v := 0x8 }]

/-- Defaults other than zero. -/
def dictDefaultsb : List DDefault := [
  { lo := 0x2510, n := 16, sub := 4, m := 1, v := 0x1 },
  { lo := 0x2510, n := 16, sub := 7, m := 1, v := 0xFFFFFFFFFFFF },
  { lo := 0x2602, n := 1, sub := 0, m := 1, v := 0x100 },
  { lo := 0x2603, n := 1, sub := 0, m := 1, v := 0x40 },
  { lo := 0x2604, n := 1, sub := 0, m := 1, v := 0x20000 },
  { lo := 0x2610, n := 64, sub := 0, m := 1, v := 0x5 },
  { lo := 0x2610, n := 64, sub := 5, m := 1, v := 0xFFFFFFFFFFFF },
  { lo := 0x2710, n := 16, sub := 0, m := 1, v := 0x5 },
  { lo := 0x2710, n := 16, sub := 4, m := 1, v := 0xFFFFFFFFFFFF },
  { lo := 0x2703, n := 1, sub := 0, m := 1, v := 0x8 },
  { lo := 0x2704, n := 1, sub := 0, m := 1, v := 0x7D0 },
  { lo := 0x2705, n := 1, sub := 0, m := 1, v := 0x8 },
  { lo := 0x2707, n := 1, sub := 1, m := 16, v := 0x3F800000 },
  { lo := 0x2802, n := 1, sub := 0, m := 1, v := 0x40 },
  { lo := 0x2803, n := 1, sub := 0, m := 1, v := 0x1F },
  { lo := 0x3010, n := 16, sub := 0, m := 1, v := 0xB },
  { lo := 0x3010, n := 16, sub := 2, m := 1, v := 0xE },
  { lo := 0x3010, n := 16, sub := 3, m := 1, v := 0x2 },
  { lo := 0x3010, n := 16, sub := 6, m := 1, v := 0xC },
  { lo := 0x3010, n := 16, sub := 7, m := 1, v := 0xFFFFFFFFFFFF },
  { lo := 0x3010, n := 16, sub := 9, m := 1, v := 0xFFFFFFFFFFFF },
  { lo := 0x3010, n := 16, sub := 10, m := 1, v := 0xFFFFFFFFFFFF },
  { lo := 0x3030, n := 16, sub := 0, m := 1, v := 0x9 },
  { lo := 0x3030, n := 16, sub := 1, m := 1, v := 0xFFFFFFFFFFFF },
  { lo := 0x3030, n := 16, sub := 3, m := 1, v := 0xFFFFFFFFFFFF },
  { lo := 0x3030, n := 16, sub := 4, m := 1, v := 0xFFFFFFFFFFFF },
  { lo := 0x2902, n := 1, sub := 0, m := 1, v := 0xC8 },
  { lo := 0x2903, n := 1, sub := 0, m := 1, v := 0x7D0 },
  { lo := 0x3040, n := 16, sub := 0, m := 1, v := 0x8 },
  { lo := 0x3006, n := 1, sub := 0, m := 1, v := 0x3 },
  { lo := 0x2A02, n := 1, sub := 0, m := 1, v := 0x32 },
  { lo := 0x2F03, n := 1, sub := 0, m := 1, v := 0x14 },
  { lo := 0x2F04, n := 1, sub := 0, m := 1, v := 0x4 },
  { lo := 0x2F06, n := 1, sub := 0, m := 1, v := 0x4000 },
  { lo := 0x2F08, n := 1, sub := 0, m := 1, v := 0x1F4 },
  { lo := 0x2F10, n := 16, sub := 0, m := 1, v := 0x8 },
  { lo := 0x2F10, n := 16, sub := 1, m := 1, v := 0xFFFFFFFFFFFF },
  { lo := 0x2F10, n := 16, sub := 3, m := 1, v := 0xFFFFFFFFFFFF },
  { lo := 0x2F30, n := 16, sub := 0, m := 1, v := 0x8 },
  { lo := 0x2F30, n := 16, sub := 4, m := 1, v := 0xFFFFFFFFFFFF }]

/-- Defaults other than zero. -/
def dictDefaultsc : List DDefault := [
  { lo := 0x2D42, n := 1, sub := 1, m := 16, v := 0x190 },
  { lo := 0x4001, n := 1, sub := 0, m := 1, v := 0x64 },
  { lo := 0x4002, n := 1, sub := 0, m := 1, v := 0x4 },
  { lo := 0x4002, n := 1, sub := 1, m := 1, v := 0x400000 },
  { lo := 0x4002, n := 1, sub := 2, m := 1, v := 0x100000 },
  { lo := 0x4002, n := 1, sub := 3, m := 1, v := 0x100000 },
  { lo := 0x4002, n := 1, sub := 4, m := 1, v := 0x200000 },
  { lo := 0x4003, n := 1, sub := 0, m := 1, v := 0x40 },
  { lo := 0x4010, n := 16, sub := 0, m := 1, v := 0x33 },
  { lo := 0x4010, n := 16, sub := 1, m := 19, v := 0x3E8 },
  { lo := 0x4010, n := 16, sub := 33, m := 19, v := 0x100000 },
  { lo := 0x2B02, n := 1, sub := 0, m := 1, v := 0xA8C0 },
  { lo := 0x2B03, n := 1, sub := 0, m := 1, v := 0xFFFF },
  { lo := 0x6001, n := 1, sub := 0, m := 1, v := 0xFFFFFFFFFFFFFFFF },
  { lo := 0x6010, n := 1, sub := 0, m := 1, v := 0x6 },
  { lo := 0x6011, n := 1, sub := 0, m := 1, v := 0x64 },
  { lo := 0xA010, n := 1, sub := 0, m := 1, v := 0x3 },
  { lo := 0x2C10, n := 16, sub := 0, m := 1, v := 0x6 },
  { lo := 0x2C10, n := 16, sub := 6, m := 1, v := 0xFFFFFFFFFFFF },
  { lo := 0x1200, n := 1, sub := 0, m := 1, v := 0x7 },
  { lo := 0x1200, n := 1, sub := 1, m := 1, v := 0x88B5 },
  { lo := 0x1200, n := 1, sub := 6, m := 1, v := 0x200000 },
  { lo := 0x1F50, n := 1, sub := 0, m := 1, v := 0x1 },
  { lo := 0x1F51, n := 1, sub := 0, m := 1, v := 0x1 },
  { lo := 0x5003, n := 1, sub := 0, m := 1, v := 0x1 },
  { lo := 0x5004, n := 1, sub := 0, m := 1, v := 0xBEBC200 },
  { lo := 0x5005, n := 1, sub := 0, m := 1, v := 0x50000 },
  { lo := 0x5009, n := 1, sub := 0, m := 1, v := 0xF4240 },
  { lo := 0x1F60, n := 1, sub := 0, m := 1, v := 0x5 },
  { lo := 0x9001, n := 1, sub := 0, m := 1, v := 0x14 },
  { lo := 0x9002, n := 1, sub := 0, m := 1, v := 0x14 },
  { lo := 0x3020, n := 16, sub := 0, m := 1, v := 0x4 }]

/-- Every defined entry. -/
def dictRows : List DRow := dictRows1a ++ dictRows2a ++ dictRows2b ++ dictRows2c ++ dictRows2d ++ dictRows3a ++ dictRows3b ++ dictRows4a ++ dictRows5a ++ dictRows6a ++ dictRows7a ++ dictRows7b ++ dictRows7c ++ dictRows7d ++ dictRows7e ++ dictRows8a ++ dictRows9a ++ dictRowsAa

/-- The row that defines an index and subindex (R9). -/
def dictRow (idx sub : Nat) : Option DRow :=
  dictRows.find? (fun r => decide (r.lo ≤ idx ∧ idx < r.lo + r.n ∧ r.sub ≤ sub ∧ sub < r.sub + r.m))

/-- The default of a register (its reset value); zero where its table gives zero. DESIGN CHOICE: log entry 11. -/
def regDefault (k : Nat) : Nat :=
  match (dictDefaultsa ++ dictDefaultsb ++ dictDefaultsc).find? (fun r =>
    decide (r.lo ≤ k / 256 ∧ k / 256 < r.lo + r.n ∧ r.sub ≤ k % 256 ∧ k % 256 < r.sub + r.m)) with
  | some r => r.v
  | none => 0

end Sys2Proof.Machine
end

