-- ==== Sys2Proof/Machine/State.lean ====
section
/-! DEFINITION. The state of the block, as plain data, and its value right after reset. -/
namespace Sys2Proof.Machine

/-- A descriptor's fields (R41). -/
structure Desc where
  opcode : Nat
  hops : List Nat
  format : Nat
  outFormat : Nat
  cls : Nat
  part : Nat
  variance : Bool
  transpose : Bool
  fence : Bool
  notify : Bool
  src : Nat
  dst : Nat
  aux : Nat
  count : Nat
  arg : Nat
  deadline : Nat
  scalar : Nat
  token : Nat
  tensor : Nat
  deriving DecidableEq, Repr

/-- A stream: an accepted descriptor until its record is written, or a refused one whose record waits (R47, R52).
`taken`: it occupies a tracker entry. `fenceWait`: its FENCE is not released (R58). `hold`: 1 commit hold (R257),
2 snapshot hold (R418). `finish`: its place in the order in which streams finished. `inbox`: EP tiles that have
arrived and are not consumed (R481). `pos`: source tiles consumed. `pending`: source tiles waiting for their group
(R46). `fetched`: tiles that arrived for it, by name. `asked`: names it has outstanding requests for. `unacked`: its
stores not yet answered. `text`: bytes the station copied at acceptance. `ordinal`: the ordinal or acceptance number its
station gave it. `degraded`: names whose bricks are decoded for it (R302, R505), and 2^50 more where it is no degraded read. `mark`: a count of its station's own (units retired, bricks sent, peers still to answer). `closing`: its work is done
and only its stores' responses are awaited. -/
structure Stream where
  id : Nat
  queue : Nat
  d : Desc
  tokenZero : Bool
  varied : Bool
  taken : Bool
  fenceWait : Bool
  hold : Nat
  epoch : Nat
  acceptedNs : Nat
  finish : Option Nat
  status : Nat
  detail : Nat
  tilesDone : Nat
  poison : Bool
  inbox : List Tile
  nextIn : Nat
  pos : Nat
  pending : List Tile
  fetched : SMap Tile
  asked : List Nat
  unacked : Nat
  text : List Byte
  ordinal : Nat
  mark : Nat
  closing : Bool
  degraded : List Nat
  stallRaised : Bool
  deriving DecidableEq, Repr

/-- The stream tracker (R47, R56). `heads`: the copy of each queue's head read ahead and since overwritten (R367). -/
structure Tracker where
  streams : List Stream
  nextId : Nat
  nextFinish : Nat
  heads : SMap (List Byte)
  deriving DecidableEq, Repr

/-- The stored lines of the yard and of the sixteen stacks. A byte's address is its slot × 4,096 plus offset in the
yard, and 2^54 plus its MP address in a stack. `marks` holds a line's mark under its address divided by 64. An
unlisted yard byte or mark is zero; an unlisted stack line is one that nothing has written since power-up `gen`. -/
structure Memory where
  cells : List Host.Cell
  marks : SMap Word32
  gen : Nat
  deriving DecidableEq, Repr

/-- HOM's maps: `entries` has the home entry word of every homed name under partition × 2^48 + name (R78); `words` the
words of the home-map copies by MP address ÷ 8, over the address ranges `inits` that initialisation set to the unmapped
entry (R79). `lru`: the lines of the map cache that hold no entry of a yard-homed tile, as partition × 2^48 + line of the
map, most recently used first (R80). `away`: copies of tiles homed in peer memory on which the mixer and the repointer work, by partition
× 2^48 + name, none where the load failed, and `awayOut` the stores of them that are not answered. -/
structure Homes where
  lru : List Nat
  away : SMap (Option Tile)
  awayOut : SMap Nat
  entries : SMap Nat
  words : SMap Nat
  inits : List (Nat × Nat)
  deriving DecidableEq, Repr

/-- One tile in the write-back cache (R87). -/
structure WbTile where
  part : Nat
  name : Nat
  slot : Nat
  dirty : Bool
  used : Nat
  deriving DecidableEq, Repr

/-- What becomes of a memory port's next transaction (R76). -/
inductive Verdict where
  | done
  | error
  | timeout
  deriving DecidableEq, Repr

/-- A segment's place: number in the yard pool, or number in the region (R116). -/
inductive Seg where
  | yard (k : Nat)
  | region (j : Nat)
  deriving DecidableEq, Repr

/-- A record of a hod stack. -/
structure HodRec where
  tag : Nat
  format : Nat
  width : Nat
  tiles : Nat
  stats : Bool
  deriving DecidableEq, Repr

/-- An open hod stack: records newest first, segments oldest first; `draining` from a pop to the next push (R118). -/
structure HodStack where
  num : Nat
  part : Nat
  draining : Bool
  recs : List HodRec
  segs : List Seg
  stalled : Option Nat
  deriving DecidableEq, Repr

/-- An open digest (R128). -/
structure Digest where
  part : Nat
  kind : Nat
  tag : Nat
  sum : Nat
  tiles : Nat
  poison : Bool
  epoch : Nat
  deriving DecidableEq, Repr

/-- A trough layer that is not closed (R159-R172). `terms`: the terms other than +0 that an element has received, by element and
ordinal (R164). `finals`: final sums other than +0. `bad`: poisoned lines. `ended`: ordinals completed. `place`: the runs of yard slots of its
storage (R71). DEDUCED: log entry 22. -/
structure Layer where
  num : Nat
  part : Nat
  queue : Nat
  tensor : Nat
  first : Nat
  tiles : Nat
  m : Nat
  isLocal : Bool
  byDesc : Bool
  unit : Option Nat
  mask : List Byte
  reference : Bool
  slots : Nat
  place : List (Nat × Nat)
  state : Nat
  taken : Nat
  ended : List Nat
  terms : SMap (SMap Part)
  finals : SMap Word32
  bad : List Nat
  deriving DecidableEq, Repr

/-- A node's partial of one shard line range that has arrived or been formed (R183, R190). -/
structure RdxPart where
  shard : Nat
  first : Nat
  level : Nat
  seg : Nat
  elems : List Part
  bad : List Nat
  deriving DecidableEq, Repr

/-- A reduction or gather in progress (R184-R191). `started`: its checks are passed. `asked`: its first
requests are sent. `credit`: credits held, by rank (R201). `parts`:
partials present. `shardsIn`: gathered segments, by shard × 65,536 + segment. `sent`: segments sent, by the same number and rank.
`sentTiles`: tiles sent. `norms`: block partials received, by rank, and whether poisoned. `desc`: its descriptor. `layer`: its layer as it was
released, without its sums (R188). `ended`: its descriptor has its status, and holds its slot until its stores are answered (R187). `left`: its descriptor
has completed, and the rest of its partials go out (R188). -/
structure RdxRun where
  sid : Nat
  part : Nat
  op : Nat
  tag : Nat
  epoch : Nat
  slotted : Bool
  started : Bool
  asked : Bool
  credit : SMap Nat
  parts : List RdxPart
  shardsIn : SMap (List Tile)
  sentTiles : Nat
  sent : List (Nat × Nat)
  norms : List (Nat × Part × Bool)
  desc : Desc
  layer : Option Layer
  ended : Bool
  left : Bool
  deriving DecidableEq, Repr

/-- A norm fold of stage A (R193). -/
structure Fold where
  part : Nat
  epoch : Nat
  tag : Nat
  sum : Part
  poison : Bool
  deriving DecidableEq, Repr

/-- The epoch's clip factor as RDX handed it to the trowel (R194). -/
structure Clip where
  part : Nat
  epoch : Nat
  value : Word32
  poison : Bool
  deriving DecidableEq, Repr

/-- The reduction station. -/
structure Rdx where
  runs : List RdxRun
  tags : List (Nat × Nat)
  folds : List Fold
  clips : List Clip
  waiting : List Packet
  deriving DecidableEq, Repr

/-- The agent of a unit of work: the partition and class it is charged to, and the deadline it is ordered by (R366, R370). -/
structure Who where
  part : Nat
  cls : Nat
  deadline : Nat
  deriving DecidableEq, Repr

/-- A packed brick sent and not acknowledged by every holder (R268): the holders in the order of their rounds (R303), how many of
them it has been sent to, the ranks that have not acknowledged it, and whether one refused it. A state delta's `len` bytes lie in
the retention lines `lines`; a gradient brick is read again from its home. `unit` is the unit that retired it. -/
structure Kept where
  part : Nat
  sid : Nat
  kind : Nat
  course : Nat
  epoch : Nat
  unit : Nat
  rows : List Nat
  sent : Nat
  owed : List Nat
  refused : Bool
  len : Nat
  lines : List Nat
  who : Who
  deriving DecidableEq, Repr

/-- A delta held for a mortar brick that is unusable (R267). -/
structure HeldDelta where
  part : Nat
  course : Nat
  rank : Nat
  epoch : Nat
  bytes : List Byte
  src : Nat
  deriving DecidableEq, Repr

/-- A range of the epoch list (R271): first name, names, the stream it belongs to, whether it is a seal's. -/
structure EpochRange where
  part : Nat
  first : Nat
  names : Nat
  sid : Nat
  isSeal : Bool
  deriving DecidableEq, Repr

/-- A ledger record that arrived (R273 step 2). -/
structure LedgerRec where
  part : Nat
  rank : Nat
  epoch : Nat
  opt : Nat
  sched : Nat
  pos : Nat
  deriving DecidableEq, Repr

/-- A row encode in progress (R307): the data ranks still to answer, and the descriptor it serves, if any. A stopped one has the rank
that refused in place of those. `begun`: the brick is zeroed and its header written. -/
structure Encode where
  part : Nat
  course : Nat
  epoch : Nat
  owed : List Nat
  sid : Option Nat
  begun : Bool
  stopped : Bool
  deriving DecidableEq, Repr

/-- The mixer. `arrived`: barriers this block has reached, as (partition, kind, epoch); `released`: those that released. `resend`:
gradient courses awaiting resends (R266); `begun`: those begun in the epoch. `updates`: the epoch's updates, as (partition, stream, verdict): 0 under way, 1 completed,
2 ended early, 3 cancelled, 4 ended early and already found so (R274). `bound`: partitions that have accepted epoch-bound work in
the epoch (R258, R418). `doneSeal`: partitions whose MIX_SEAL_DONE is accepted in the epoch. `refusal`: (partition, rank, code) of a
refusal the waiting descriptor must report (R268). `due`: marks still to be made in headers that lie in peer memory, as (partition, course, mark): none is STALE,
some e the present map epoch in a complete header of epoch e (R293, R429). -/
structure Mixer where
  kept : List Kept
  held : List HeldDelta
  list : List EpochRange
  ledgers : List LedgerRec
  encodes : List Encode
  arrived : List (Nat × Nat × Nat)
  released : List (Nat × Nat × Nat)
  resend : List (Nat × Nat)
  begun : List (Nat × Nat)
  updates : List (Nat × Nat × Nat)
  bound : List Nat
  doneSeal : List Nat
  refusal : List (Nat × Nat × Nat)
  due : List (Nat × Nat × Option Nat)
  deriving DecidableEq, Repr

/-- A partition's recorded point (R291). -/
structure Recorded where
  part : Nat
  step : Nat
  epoch : Nat
  phase : Nat
  atSeal : Bool
  atCommit : Bool
  deriving DecidableEq, Repr

/-- Membership. `rebuilt`: bricks rebuilt of a spare, as (partition, course); (partition, 2^48) where the gradient range needs no rebuild.
`arith`: the arithmetic mode in which a partition finishes an epoch in progress, as 2 × epoch + mode (R294). `passEnd`: the epoch in which the pass over data bricks ended
(R301). `copies`: ledger tiles copied, by partition × 2 + tile, and `copyFrom` the rank being copied from (R296). `starting`: how far a job
start is, 1 discovery, 4 its link delays, 2 ledger copy, 3 ledger written (R494); `readyHeld`: partitions whose JOB_CONTROL 1 is held until then. `ready`: spares that have
raised the ready flag in its epoch, as (partition, rank, epoch), and `readyOwed` the ranks that have not acknowledged this block's. `fenced`: partitions halted by a fence notice. `splits`: courses
that hold a split unit (R311), as (partition, course). `nodes`: the
node that each rank last had, by partition × 32 + rank. -/
structure Members where
  recorded : List Recorded
  rebuilt : List (Nat × Nat)
  ready : List (Nat × Nat × Nat)
  readyOwed : List (Nat × Nat)
  fenced : List Nat
  silentNoted : List (Nat × Nat)
  breached : List (Nat × Nat)
  splits : List (Nat × Nat)
  nodes : SMap Nat
  arith : SMap Nat
  passEnd : SMap Nat
  copies : SMap (List Byte)
  copyFrom : SMap Nat
  starting : SMap Nat
  readyHeld : List Nat
  deriving DecidableEq, Repr

/-- A decode for this block (R299): `course` counts coded courses and then gradient courses; `mask` has bit j for line j of
each tile, `prefs` are the rows preferred, in order, where the ascending order is not (R305), and `rows` those of the present choice; `trust`: bricks of spares
are taken as rebuilt; `extra`: a data rank besides whose lines are taken as lost; `left` the other choices of the three; `again`: it goes on to the next of them; `failed`: none is left (R312); `stale`: its
contributions' versions differ, and it waits to be made again (R298). `hold` keeps the result without
writing it; `sum` is the decoded lines once `isDone`; `degraded`: a stream's wait for it
counts in RPT_DEGRADED_NS (R302, R505). -/
structure Repair where
  part : Nat
  course : Nat
  lost : Nat
  mask : Nat
  prefs : List Nat
  rows : List Nat
  trust : Bool
  extra : Option Nat
  left : List (List Nat × Bool × Option Nat)
  hold : Bool
  isDone : Bool
  again : Bool
  failed : Bool
  stale : Bool
  sum : List Byte
  degraded : Bool
  deriving DecidableEq, Repr

/-- A repair contribution this block makes (R299): its position in the tree, the rank its sum goes to, the positions it still
waits for, the sum so far, the numbers of the sum's poisoned lines, its coefficient, whether the request has come, and whether its own
product is in the sum. Before the request has come, `owed` lists the positions whose sums have. -/
structure Contrib where
  part : Nat
  course : Nat
  lost : Nat
  mask : Nat
  pos : Nat
  parent : Nat
  owed : List Nat
  sum : List Byte
  bad : List Nat
  coef : Nat
  asked : Bool
  own : Bool
  deriving DecidableEq, Repr

/-- A peer (R336, R344). -/
structure Peer where
  node : Nat
  level : Nat
  nonce : Nat
  misses : Nat
  silent : Bool
  deadNoted : Bool
  restarted : Bool
  known : Bool
  heard : Bool
  deriving DecidableEq, Repr

/-- What an outstanding request is for: a stream's read or write of a name, the run-time's atomic, a copy of a ledger tile (R296), the tile
of an arriving request whose home is in a peer (R325), read first and then written, a broadcast's source tile for a position (R342; 65,536 for
this block's own), a tile of the mixer's or the repointer's, loaded or stored, a tile of a mortar sample (R405), or a store that nothing waits for. -/
inductive ReqUse where
  | read (sid : Nat) (name : Nat)
  | write (sid : Nat)
  | atomic
  | ledger (part : Nat) (slot : Nat)
  | relay (p : Packet)
  | relayed (p : Packet) (old : Word64)
  | bcast (part : Nat) (index : Nat) (pos : Nat)
  | away (part : Nat) (name : Nat)
  | verify (part : Nat) (course : Nat) (key : Nat)
  | plain
  deriving DecidableEq, Repr

/-- A request awaiting its response (R331). -/
structure Req where
  tag : Nat
  type : Nat
  op : Nat
  lines : Nat
  node : Nat
  use : ReqUse
  deriving DecidableEq, Repr

/-- A multi-packet payload being assembled (R321). -/
structure Assembly where
  key : Packet
  frags : List (Nat × List Line)
  deriving DecidableEq, Repr

/-- The store sequence numbers of one source applied at one partition (R327). -/
structure SeqTrack where
  src : Nat
  part : Nat
  next : Nat
  ahead : List Nat
  deriving DecidableEq, Repr

/-- The fabric port. `out`: packets sent, oldest first. `txSeq`: next SEQ by target node × 16 + partition. `flagged`: flagged
stores and atomics that wait for earlier stores. `stalled`: arriving requests that wait for a decode (R302, R308). `heldAtomic`: the run-time's
atomic while its earlier stores are unanswered (R328). `pendingAtomic`: an atomic awaits its response, and `atomicAnswer` is what a read of
FP_ATOMIC returns (R329). -/
structure Fabric where
  peers : List Peer
  reqs : List Req
  txSeq : SMap Nat
  rx : List SeqTrack
  flagged : List Packet
  assemblies : List Assembly
  out : List Packet
  stalled : List Packet
  heldAtomic : Option Packet
  tagWaits : List ReqUse
  pendingAtomic : Bool
  atomicAnswer : List Byte
  deriving DecidableEq, Repr

/-- An arrival at a barrier received from a position (R339). -/
structure Arrival where
  part : Nat
  kind : Nat
  epoch : Nat
  pos : Nat
  delay : Nat
  deriving DecidableEq, Repr

/-- The barrier tree of each partition (R337-R341). `down`: a release in countdown, as (partition, kind, epoch, cycles).
`delays`: measured link delays by node. `echoes`: ECHO packets outstanding, as (node, number, sent cycle); `best`: the least round trip so far of
a node and its reply's turnaround. `replaced`: positions replaced since the last barrier, as (partition, position). -/
structure Barriers where
  arrivals : List Arrival
  sentUp : List (Nat × Nat × Nat)
  down : List (Nat × Nat × Nat × Nat)
  adopted : List (Nat × Nat)
  parents : SMap Nat
  delays : SMap Nat
  echoes : List (Nat × Nat × Nat)
  best : SMap (Nat × Nat)
  replaced : List (Nat × Nat)
  deriving DecidableEq, Repr

/-- A broadcast (R342, R343): `low` and `seen` are L and the bitmap, `childLow` what each position below last reported, `childNext` the index it
is sent next. -/
structure Bcast where
  part : Nat
  job : Nat
  isRoot : Bool
  src : Nat
  count : Option Nat
  dst : Nat
  low : Nat
  seen : List Nat
  childLow : SMap Nat
  childNext : SMap Nat
  childDone : List Nat
  doneSent : Bool
  rootLost : Bool
  deriving DecidableEq, Repr

/-- A sample of mortar re-verification (R405): the data bricks' tiles that have come, by rank × 16 + tile, the tiles still to be asked for,
and the map epoch and step epoch it belongs to. -/
structure Verify where
  part : Nat
  course : Nat
  epoch : Nat
  mapEpoch : Nat
  toAsk : List Nat
  fetched : SMap Tile
  deriving DecidableEq, Repr

/-- The safety monitor. `ring`: event entries by index mod 1,024, as (word 0, word 1). `limits`: when a limited code was last
raised, as (code, unit, partition, ns). `katPass`: last pass of a lane group as a SAF_TIME value. `notes`: entries not yet notified.
`lanes`: the mismatches that lanes' checks are still to find, as (lane group, whether the rerun fails too) (R225, R401).
`verify`: the mortar samples under way, and `verifyNext` the next course of each partition (R405). -/
structure Safety where
  ring : SMap (Nat × Nat)
  limits : List (Nat × Nat × Nat × Nat)
  katPass : SMap Nat
  notes : List (Nat × Nat)
  lanes : List (Nat × Bool)
  verify : List Verify
  verifyNext : SMap Nat
  deriving DecidableEq, Repr

/-- The scrubber (R390-R393): the next line of the lap, when it began, how often its limit was reached, the ranges the host has named. -/
structure Scrub where
  pos : Nat
  lapStart : Nat
  limitHits : Nat
  ranges : List (Nat × Nat × Nat)
  deriving DecidableEq, Repr

/-- A snapshot session's own state beyond its entries (R418-R430). -/
structure SnapSession where
  part : Nat
  bricks : Nat
  hasLedger : Bool
  ledger : List Byte
  deriving DecidableEq, Repr

/-- A DMP frame the block sent (R443). -/
structure DmpOut where
  port : MgPort
  dst : Nat
  vlan : Option Nat
  type : Nat
  client : Nat
  seq : Nat
  index : Nat
  sub : Nat
  size : Nat
  last : Bool
  dup : Bool
  value : Nat
  data : List Byte
  deriving DecidableEq, Repr

/-- A segmented transfer (R446, R450). -/
structure Xfer where
  write : Bool
  index : Nat
  sub : Nat
  total : Nat
  data : List Byte
  abandoned : Bool
  deriving DecidableEq, Repr

/-- A DMP client's records (R444, R445): the highest number executed, and the responses recorded, newest first. -/
structure Client where
  id : Nat
  highest : Nat
  answers : List (Nat × DmpOut)
  xfer : Option Xfer
  deriving DecidableEq, Repr

/-- The window response block (R449). -/
structure WinAnswer where
  status : Nat
  bytes : Nat
  total : Nat
  data : List Byte
  wseq : Nat
  deriving DecidableEq, Repr

/-- The management side: clients heard from most recently first; frames sent; the window; `busy`: the window's request that
has not completed, by its key. -/
structure Mgmt where
  clients : List Client
  out : List DmpOut
  answer : WinAnswer
  winXfer : Option Xfer
  busy : Option (Nat × Nat)
  waiting : List (Nat × DmpFrame)
  notifySeq : Nat
  deriving DecidableEq, Repr

/-- A PTP message the block sent (R458). -/
structure PtpOut where
  port : MgPort
  seq : Nat
  depart : Nat
  deriving DecidableEq, Repr

/-- The timebase and the PTP clock. `tb`: the value in units of 2^-16 ns. `up`: TREF cycles since RESETn was released, as
nanoseconds × 2^16 by TREF_HZ (R456). `best`: the Announce data of the candidate masters. `syncAt`: the Sync in progress, as
(sequence, arrival). `lock`: consecutive Sync messages within ±200 ns. `delay`: last mean path delay. -/
structure Time where
  tb : Nat
  running : Bool
  up : Nat
  best : List Announce
  syncAt : Option (Nat × Nat)
  t1t2 : Option (Nat × Nat)
  reqAt : Option (Nat × Nat)
  delay : Int
  lock : Nat
  wasLocked : Bool
  stepped : Bool
  frozen : Nat
  misses : Nat
  newSeconds : Option Nat
  lastTpps : Option Nat
  exchanges : List (List Byte)
  sent : List PtpOut
  delaySeq : Nat
  deriving DecidableEq, Repr

/-- The lifetime recorder (R465-R469). -/
structure Life where
  epochId : Nat
  pushSeq : Nat
  gap : Bool
  orderly : Bool
  hist : SMap Nat
  deriving DecidableEq, Repr

/-- The block's pins and what drives them: supplies present, RESETn, the link and refresh inputs (`refreshed`: the ports whose refresh input has been high since their last response), the SAFE_FAULT pair, the test
access port's instruction and boundary cells. -/
structure Pins where
  powered : Bool
  resetn : Bool
  fpUp : Bool
  fpRetry : Bool
  mga : Bool
  mgb : Bool
  refresh : Nat
  refreshed : Nat
  safeT : Bool
  safeC : Bool
  tap : TapOp
  cells : Nat
  tapOut : Nat
  instrument : List Byte
  deriving DecidableEq, Repr

/-- The paced schedule's record (R351-R355), by port (0 EP, 1 to 16 the MP ports, 17 FP) in the port's own cycles: the first cycle at which
the next output can leave after a slip, by how much the last late input or the waits of the port move what depends on them, and the
lateness of its last slipped output; the outbound tiles that are released; and by queue the DQ_PRODUCER writes, as (value, EP cycle). -/
structure Pace where
  next : SMap Nat
  moved : SMap Nat
  slipped : SMap Nat
  released : Nat
  rung : SMap (List (Nat × Nat))
  deriving DecidableEq, Repr

/-- Alignment (R357-R360): the counts of the periods seen, newest first, and each domain's cycle counter after alignment,
and whether the domains that have not passed are given up at the next edge. -/
structure Align where
  periods : List (List Nat)
  counters : List Nat
  gaveUp : Bool
  deriving DecidableEq, Repr

/-- The mason: the firmware image buffer and whether the diagnostic state holds (R404, R452). -/
structure Mason where
  image : List Byte
  diag : Bool
  bare : Bool
  deriving DecidableEq, Repr

/-- A tile EP has delivered or holds for the host (R481). -/
structure OutTile where
  queue : Nat
  token : Nat
  ordinal : Nat
  tile : Tile
  varied : Bool
  sid : Nat
  who : Who
  deriving DecidableEq, Repr

/-- The answer of the queue channel to its last command (R482). -/
inductive ChanAnswer where
  | none
  | ok
  | error
  | record (bytes : List Byte)
  deriving DecidableEq, Repr

/-- What an access to a line outside the address space does. DESIGN CHOICE: log entry 15. -/
inductive Fault where
  /-- IJTAG_INSTRUMENT: an instrument write to a yard slot the spec says does not exist (R67). Safe: the block stops where it has
  no storage. -/
  | noSuchSlot (slot : Nat)
  deriving DecidableEq, Repr

/-- Why a command has no outcome in the model. -/
inductive Refusal where
  /-- Dispatch: the command has no meaning in the model yet. Safe. -/
  | notModelled (mnemonic : String)
  deriving DecidableEq, Repr

/-- The block. `regs`: every number-valued dictionary entry and counter, by key. `strs`: every byte-string entry, by key. `fresh`: the
model's own counter of free values. `sdo`: the SDO abort code the last dictionary request received, 0 for success. -/
structure State where
  pending : List Instr
  regs : SMap Nat
  strs : SMap (List Byte)
  pins : Pins
  align : Align
  mason : Mason
  tracker : Tracker
  mem : Memory
  homes : Homes
  wb : List WbTile
  verdicts : SMap (List Verdict)
  epOut : List OutTile
  chan : ChanAnswer
  hod : List HodStack
  digests : List Digest
  visits : SMap Nat
  layers : List Layer
  rdx : Rdx
  programs : SMap (List Nat)
  mixer : Mixer
  members : Members
  repairs : List Repair
  contribs : List Contrib
  fabric : Fabric
  barriers : Barriers
  bcasts : List Bcast
  tokens : SMap Nat
  pace : Pace
  safety : Safety
  scrub : Scrub
  snaps : List SnapSession
  mgmt : Mgmt
  time : Time
  life : Life
  sdo : Nat
  fresh : Nat
  deriving DecidableEq, Repr

/-- The state right after RESETn is asserted with the supplies in range (R410, R476, R479, R490): every dictionary entry at its
default, START_STAGE 0, SAFE_FAULT (1, 0), nothing stored. DESIGN CHOICE: log entry 8. PRESUMED: log entry 9. DESIGN CHOICE: log entry 10. -/
def State.reset : State :=
  { pending := [], regs := [], strs := [],
    pins := { powered := true, resetn := false, fpUp := false, fpRetry := false, mga := false, mgb := false, refresh := 0, refreshed := 0,
              safeT := true, safeC := false, tap := .idcode, cells := 0, tapOut := 0, instrument := [] },
    align := { periods := [], counters := [], gaveUp := false },
    mason := { image := [], diag := false, bare := true },
    tracker := { streams := [], nextId := 0, nextFinish := 0, heads := [] },
    mem := { cells := [], marks := [], gen := 0 },
    homes := { lru := [], away := [], awayOut := [], entries := [], words := [], inits := [] },
    wb := [], verdicts := [], epOut := [], chan := .none, hod := [], digests := [], visits := [], layers := [],
    rdx := { runs := [], tags := [], folds := [], clips := [], waiting := [] },
    programs := [],
    mixer := { kept := [], held := [], list := [], ledgers := [], encodes := [], arrived := [], released := [], resend := [], begun := [],
               updates := [], bound := [], doneSeal := [], refusal := [], due := [] },
    members := { recorded := [], rebuilt := [], ready := [], readyOwed := [], fenced := [], silentNoted := [], breached := [], splits := [], nodes := [], arith := [],
                 passEnd := [], copies := [], copyFrom := [], starting := [], readyHeld := [] },
    repairs := [], contribs := [],
    fabric := { peers := [], reqs := [], txSeq := [], rx := [], flagged := [], assemblies := [], out := [],
                stalled := [], heldAtomic := none, tagWaits := [], pendingAtomic := false, atomicAnswer := [] },
    barriers := { arrivals := [], sentUp := [], down := [], adopted := [], parents := [], delays := [], echoes := [], best := [], replaced := [] },
    bcasts := [], tokens := [], pace := { next := [], moved := [], slipped := [], released := 0, rung := [] },
    safety := { ring := [], limits := [], katPass := [], notes := [], lanes := [], verify := [], verifyNext := [] },
    scrub := { pos := 0, lapStart := 0, limitHits := 0, ranges := [] },
    snaps := [],
    mgmt := { clients := [], out := [], answer := { status := 0, bytes := 0, total := 0, data := [], wseq := 0 },
              winXfer := none, busy := none, waiting := [], notifySeq := 0 },
    time := { tb := 0, running := false, up := 0, best := [], syncAt := none, t1t2 := none, reqAt := none, delay := 0, lock := 0,
              wasLocked := false, stepped := false, frozen := 0, misses := 0, newSeconds := none, lastTpps := none,
              exchanges := [], sent := [], delaySeq := 0 },
    life := { epochId := 0, pushSeq := 0, gap := false, orderly := false, hist := [] },
    sdo := 0, fresh := 0 }

end Sys2Proof.Machine
end

