-- ==== Sys2Proof/Machine/Regs.lean ====
section
/-! DEFINITION. The register file: every number-valued and string-valued entry of the object dictionary, under its key. -/
namespace Sys2Proof.Machine

/-- The value a register holds: the one listed, or its default. -/
def reg (s : State) (k : Nat) : Nat := (smapGet s.regs k).getD (regDefault k)

/-- The state with a register written; a register at its default is not listed. -/
def setReg (s : State) (k v : Nat) : State := { s with regs := smapSet regDefault s.regs k v }

/-- The bytes a string entry holds; none listed is the empty string. -/
def str (s : State) (k : Nat) : List Byte := (smapGet s.strs k).getD []

/-- The bytes of a string entry of `n` bytes, zero bytes by default. -/
def strN (s : State) (k n : Nat) : List Byte := match smapGet s.strs k with | some b => b | none => zeros n

/-- The state with a string entry written. -/
def setStr (s : State) (k : Nat) (b : List Byte) : State := { s with strs := smapPut s.strs k b }

/-- Write several registers. -/
def setRegs (s : State) (l : List (Nat × Nat)) : State := l.foldl (fun s kv => setReg s kv.1 kv.2) s

/-- Set one bit of a register. -/
def setRegBit (s : State) (k i : Nat) (b : Bool) : State := setReg s k (setBit (reg s k) i b)

/-- The largest count of a run-time event counter and its sticky saturation flag (R398). -/
def countMax : Nat := 2 ^ 48 - 1
def countSticky : Nat := 2 ^ 63

/-- Add to a run-time event counter (R398): 48 bits, saturating, with a sticky flag in bit 63. -/
def bump (s : State) (k n : Nat) : State :=
  if countSticky ≤ reg s k then s
  else if reg s k + n ≤ countMax then setReg s k (reg s k + n)
  else setReg s k (countSticky + countMax)

/-- Add to a lifetime counter (R398): 64 bits, saturating. -/
def lifeBump (s : State) (k n : Nat) : State := setReg s k (min (reg s k + n) (2 ^ 64 - 1))

/-- Lifetime counter number i of R465, from 1. -/
def ltKey (i : Nat) : Nat := 0x8001 * 256 + i

/-- Add one to a bin of a lifetime histogram (R398, R466). -/
def binBump (s : State) (hist b : Nat) : State :=
  let v := min ((smapGet s.life.hist (hist * 1024 + b)).getD 0 + 1) (2 ^ 32 - 1)
  { s with life := { s.life with hist := smapPut s.life.hist (hist * 1024 + b) v } }

/-- The value of a bin. -/
def binGet (s : State) (hist b : Nat) : Nat := (smapGet s.life.hist (hist * 1024 + b)).getD 0

/-- A fresh draw number for a free value. -/
def draw (s : State) : State × Nat := ({ s with fresh := s.fresh + 1 }, s.fresh)

end Sys2Proof.Machine
end

