-- ==== Sys2Proof/Machine/Flags.lean ====
section
/-! DEFINITION. Time stamps, events (R395-R397), and the gates of the block's states (R411, R479, R490). -/
namespace Sys2Proof.Machine

/-- Timebase nanoseconds in all (R455). -/
def nowNs (s : State) : Nat := s.time.tb / 65536

/-- Timebase seconds. -/
def nowS (s : State) : Nat := nowNs s / 1000000000

/-- Seconds [31:0] in bits [63:32] and nanoseconds in bits [31:0] (R411, R467). -/
def stamp (s : State) : Nat := (nowS s % 2 ^ 32) * 2 ^ 32 + nowNs s % 1000000000

/-- The time a deadline is compared with (R42, R455). -/
def nowDeadline (s : State) : Nat := nowNs s / 16 % 2 ^ 48

/-- Nanoseconds since RESETn was released, which neither slews nor steps change (R456). -/
def upNs (s : State) : Nat := s.time.up / 65536

/-- Cycles of an aligned domain in a number of nanoseconds, to the nearest: its rate is TREF_HZ times its count over TREF's (R357, R358).
DESIGN CHOICE: log entry 104. -/
def domainCycles (s : State) (d ns : Nat) : Nat :=
  let den := 1000000000 * max 1 (reg s (K.ALIGN_COUNTS 18))
  (2 * ns * reg s (K.ALIGN_COUNTS d) * reg s K.TREF_HZ + den) / (2 * den)

/-- Nanoseconds in a number of an aligned domain's cycles, to the nearest. DESIGN CHOICE: log entry 104. -/
def cyclesNs (s : State) (d n : Nat) : Nat :=
  let den := max 1 (reg s (K.ALIGN_COUNTS d) * reg s K.TREF_HZ)
  (2 * n * 1000000000 * reg s (K.ALIGN_COUNTS 18) + den) / (2 * den)

/-- One list of numbers comes before another. -/
def keyBefore : List Nat → List Nat → Bool
  | a :: t, b :: u => decide (a < b) || (decide (a = b) && keyBefore t u)
  | _, _ => false

/-- EP is out of reset (R360). -/
def epOpen (s : State) : Bool := (reg s K.ALIGN_STATUS).testBit 0

/-- The supplies are present and RESETn is high. -/
def alive (s : State) : Bool := s.pins.powered && s.pins.resetn

/-- Every station works: firmware ready and the block not in the safe state (R410, R490). -/
def working (s : State) : Bool := alive s && decide (reg s K.START_STAGE = 5) && decide (reg s K.SAFE_STATE = 1)

/-- The frame every command keeps but those of reset and power: the queue, the supplies and RESETn are not its to change. -/
def keep (s t : State) : State :=
  { t with pending := s.pending, pins := { t.pins with powered := s.pins.powered, resetn := s.pins.resetn } }

/-- A command of the stations: it acts while every station works, and has no effect otherwise. -/
def whenWorking (s : State) (t : State) : Host.Outcome State Fault Refusal := .next (if working s then keep s t else s)

/-- A command of the mason, the ports or the monitor: it acts while RESETn is high. -/
def whenAlive (s : State) (t : State) : Host.Outcome State Fault Refusal := .next (if alive s then keep s t else s)

/-- Severity of an event code (R397). -/
def evSeverity (code : Nat) : Nat :=
  if code = 0x15 then 3
  else if [0x07, 0x09, 0x17].contains code then 0
  else if [0x01, 0x02, 0x03, 0x04, 0x0C, 0x0D, 0x12, 0x16].contains code then 1
  else 2

/-- Codes marked as limited in R397. -/
def evLimited (code : Nat) : Bool := [0x01, 0x02, 0x04, 0x0C, 0x0D, 0x0F, 0x10, 0x11, 0x16].contains code

/-- Word 1 of an event entry (R396). -/
def evWord (code station unit : Nat) (part : Option Nat) (tree : Bool) (detail : Nat) : Nat :=
  code + evSeverity code * 2 ^ 8 + (part.getD 0) * 2 ^ 10 + b2n part.isSome * 2 ^ 14 + (station % 32) * 2 ^ 16 +
    (unit % 256) * 2 ^ 21 + b2n tree * 2 ^ 31 + (detail % 2 ^ 32) * 2 ^ 32

/-- Bits [31:16] of word 1, as SAF_NODE holds them (R412). -/
def nodeWord (station unit : Nat) (tree : Bool) : Nat := station % 32 + (unit % 256) * 32 + b2n tree * 32768

/-- Place an entry in the event ring, or count it lost (R395). -/
def ringPut (s : State) (w : Nat) : State :=
  if 1024 ≤ (reg s K.EV_PRODUCER + 2 ^ 32 - reg s K.EV_CONSUMER) % 2 ^ 32 then bump s K.EV_LOST 1
  else
    let e := (nowNs s % 1000000000 + (nowS s % 2 ^ 32) * 2 ^ 32, w)
    let p := reg s K.EV_PRODUCER
    setReg { s with safety := { s.safety with ring := smapPut s.safety.ring (p % 1024) e } } K.EV_PRODUCER ((p + 1) % 2 ^ 32)

/-- Whether the one-per-millisecond limit of R395 suppresses a raise. -/
def evSuppressed (s : State) (code node part : Nat) : Bool :=
  evLimited code && s.safety.limits.any (fun l => decide (l.1 = code ∧ l.2.1 = node ∧ l.2.2.1 = part ∧ upNs s < l.2.2.2 + 1000000))

/-- Raise an event at a node (R395-R397). -/
def raise (s : State) (code station unit : Nat) (part : Option Nat) (tree : Bool) (detail : Nat) : State :=
  let node := nodeWord station unit tree
  let pk := match part with | some p => p + 1 | none => 0
  if evSuppressed s code node pk then s
  else
    let w := evWord code station unit part tree detail
    let lim := if evLimited code then (code, node, pk, upNs s) :: s.safety.limits.filter (fun l => decide (¬ (l.1 = code ∧ l.2.1 = node ∧ l.2.2.1 = pk)))
               else s.safety.limits
    let notes := if (reg s K.NOTIFY_MASK).testBit code then s.safety.notes ++ [(nowNs s % 1000000000 + (nowS s % 2 ^ 32) * 2 ^ 32, w)] else s.safety.notes
    let s := { s with safety := { s.safety with limits := lim, notes := notes } }
    ringPut (setReg s K.EV_SEEN (reg s K.EV_SEEN ||| 2 ^ code)) w

/-- EV_HOST: the ring holds an entry whose code is in the mask (R395). -/
def evHost (s : State) : Bool :=
  alive s && (List.range ((reg s K.EV_PRODUCER + 2 ^ 32 - reg s K.EV_CONSUMER) % 2 ^ 32)).any (fun i =>
    match smapGet s.safety.ring ((reg s K.EV_CONSUMER + i) % 1024) with
    | some e => (reg s K.EV_MASK).testBit (e.2 % 256)
    | none => false)

/-- Route codes of stations and the further station codes of R396. -/
def stEP : Nat := 0x01
def stSST : Nat := 0x02
def stHOM : Nat := 0x03
def stHOD : Nat := 0x04
def stPLB : Nat := 0x05
def stSIV : Nat := 0x06
def stTRG : Nat := 0x07
def stRDX : Nat := 0x08
def stTRW : Nat := 0x09
def stMIX : Nat := 0x0A
def stRPT : Nat := 0x0B
def stSNP : Nat := 0x0C
def stFP : Nat := 0x0D
def stMP : Nat := 0x0E
def stSTR : Nat := 0x10
def stSCR : Nat := 0x11
def stSCH : Nat := 0x12
def stMSN : Nat := 0x13
def stTMB : Nat := 0x14
def stSAF : Nat := 0x15
def stLIF : Nat := 0x16

/-- Lane groups of a station, as first group and count (R15, R412). -/
def laneGroups (st : Nat) : Nat × Nat :=
  if st = stTRW then (0, 48) else if st = stTRG then (48, 32) else if st = stRDX then (80, 24) else if st = stSIV then (104, 16)
  else if st = stMIX then (120, 16) else if st = stRPT then (136, 16) else if st = stPLB then (152, 4) else if st = stSNP then (156, 4)
  else (160, 0)

/-- The station of a lane group. -/
def groupStation (g : Nat) : Nat :=
  if g < 48 then stTRW else if g < 80 then stTRG else if g < 104 then stRDX else if g < 120 then stSIV
  else if g < 136 then stMIX else if g < 152 then stRPT else if g < 156 then stPLB else stSNP

/-- A job is attached to partition q (R24): from the acceptance of JOB_START to the end. -/
def jobAttached (s : State) (q : Nat) : Bool := decide (reg s (K.JOB_STATE q) ≠ 0)

/-- Some partition has a job attached. -/
def anyJob (s : State) : Bool := (List.range 16).any (jobAttached s)

/-- The speed factor's columns, in eighths of a degree, and its rows in hundredths (R347). -/
def speedTemps : List Nat := [0, 200, 440, 680, 840]
def speedRows : List (Nat × List Nat) :=
  [(500, [31, 34, 38, 42, 45]), (600, [62, 64, 67, 70, 71]), (650, [85, 85, 85, 85, 85]), (700, [105, 104, 102, 100, 98]),
   (800, [134, 132, 128, 124, 121]), (900, [155, 153, 147, 142, 138])]

/-- Where x lies between two neighbours of a rising list: the place of the lower one. -/
def segmentOf (l : List Nat) (x : Nat) : Nat := (rangeFrom 1 (l.length - 2)).foldl (fun a i => if (l[i]?).getD 0 ≤ x then i else a) 0

/-- The speed factor at a voltage in mV and a temperature in eighths of a degree, as a fraction: linear in voltage and then in
temperature (R347), a point beyond the table taken at its edge. -/
def speedFactor (mv t8 : Nat) : Nat × Nat :=
  let mv := max 500 (min 900 mv)
  let t8 := min 840 t8
  let i := segmentOf (speedRows.map Prod.fst) mv
  let j := segmentOf speedTemps t8
  let row := fun k => (speedRows[k]?).getD (0, [])
  let lo := row i
  let hi := row (i + 1)
  let t0 := (speedTemps[j]?).getD 0
  let t1 := (speedTemps[j + 1]?).getD 0
  let at_ := fun c => ((lo.2[c]?).getD 0) * (hi.1 - mv) + ((hi.2[c]?).getD 0) * (mv - lo.1)
  (at_ j * (t1 - t8) + at_ (j + 1) * (t8 - t0), 100 * (hi.1 - lo.1) * (t1 - t0))

/-- A 16-bit temperature reading as a signed number of eighths of a degree (R363). -/
def tempOf (v : Nat) : Int := if v < 32768 then (v : Int) else (v : Int) - 65536

/-- The lowest supply and the highest temperature last sampled in any region (R348, R466); the nominal point before the first
sample. -/
def lowestMv (s : State) : Nat :=
  let l := (List.range 16).map (fun r => reg s (K.REGION_MV r))
  if l.all (fun v => decide (v = 0)) then 700 else l.foldl min 65535
def highestTemp (s : State) : Int :=
  if (List.range 16).all (fun r => decide (reg s (K.REGION_MV r) = 0)) then 680
  else (List.range 16).foldl (fun a r => max a (tempOf (reg s (K.REGION_TEMP r)))) (-32768)

/-- The speed factor at the operating point last sampled. -/
def speedNow (s : State) : Nat × Nat := speedFactor (lowestMv s) (highestTemp s).toNat

end Sys2Proof.Machine
end

