-- ==== Sys2Proof/Machine/Gf.lean ====
section
/-! DEFINITION. The field of R239 and R380 (polynomial 0x11D, α = 2), the line code RS(68,64) and the decoding of a
line from its mark (R380, R381). A line's mark is its stored check bytes XOR the encoding of its data bytes, so the
syndromes of the stored word are those of the word whose data is zero and whose check bytes are the mark. -/
namespace Sys2Proof.Machine

/-- Multiplication by α. -/
def gfDouble (a : Nat) : Nat := if 128 ≤ a then (a * 2) ^^^ 0x11D else a * 2

/-- The eight partial products of a field multiplication, lowest bit of `b` first. -/
def gfMulBits : Nat → Nat → Nat → Nat
  | 0, _, _ => 0
  | n + 1, a, b => (if b % 2 = 1 then a else 0) ^^^ gfMulBits n (gfDouble a) (b / 2)

/-- Multiplication in the field. -/
def gfMul (a b : Nat) : Nat := gfMulBits 8 a b

/-- α^t. -/
def gfPow : Nat → Nat
  | 0 => 1
  | t + 1 => gfDouble (gfPow t)

/-- a^n. -/
def gfExp (a : Nat) : Nat → Nat
  | 0 => 1
  | n + 1 => gfMul a (gfExp a n)

/-- The inverse of a non-zero field element: a^254. -/
def gfInv (a : Nat) : Nat := gfExp a 254

/-- Quotient in the field. -/
def gfDiv (a b : Nat) : Nat := gfMul a (gfInv b)

/-- The state of the encoder of R380: the remainder's coefficients of x^0 to x^3. -/
structure RsRem where
  r0 : Nat
  r1 : Nat
  r2 : Nat
  r3 : Nat
  deriving DecidableEq, Repr

/-- One data symbol, highest degree first, through the divider by g(x) of R380. -/
def rsStep (b : Byte) (r : RsRem) : RsRem :=
  let f := b.toNat ^^^ r.r3
  { r0 := gfMul f 0x40, r1 := r.r0 ^^^ gfMul f 0x78, r2 := r.r1 ^^^ gfMul f 0x36, r3 := r.r2 ^^^ gfMul f 0x0F }

/-- The check word of 64 data bytes: check byte t in bits [8t+7:8t] (R380). -/
def rsEncode (data : List Byte) : Word32 :=
  let r := data.foldr rsStep { r0 := 0, r1 := 0, r2 := 0, r3 := 0 }
  BitVec.ofNat 32 (r.r0 + 256 * r.r1 + 65536 * r.r2 + 16777216 * r.r3)

/-- The poison syndrome of R381. -/
def poisonMark : Word32 := 0xA5C33C5A

/-- The four syndromes of a stored word whose mark is `m`. -/
def syndromes (m : Nat) : Nat × Nat × Nat × Nat :=
  let b0 := m % 256; let b1 := m / 256 % 256; let b2 := m / 65536 % 256; let b3 := m / 16777216 % 256
  let s := fun i => b0 ^^^ gfMul b1 (gfPow i) ^^^ gfMul b2 (gfPow (2 * i)) ^^^ gfMul b3 (gfPow (3 * i))
  (s 0, s 1, s 2, s 3)

/-- Symbol corrections: (position t of the code polynomial, value). -/
abbrev Fixes := List (Nat × Nat)

/-- The one-symbol error that gives these syndromes. -/
def oneError (s0 s1 s2 s3 : Nat) : Option Fixes :=
  if s0 = 0 then none else
    match (List.range 68).filter (fun t => decide (gfMul s0 (gfPow t) = s1 ∧ gfMul s1 (gfPow t) = s2 ∧ gfMul s2 (gfPow t) = s3)) with
    | t :: _ => some [(t, s0)]
    | [] => none

/-- The two-symbol error that gives these syndromes: the locator X² + σ1·X + σ2 and its two roots. -/
def twoErrors (s0 s1 s2 s3 : Nat) : Option Fixes :=
  let det := gfMul s1 s1 ^^^ gfMul s0 s2
  if det = 0 then none else
    let g1 := gfDiv (gfMul s1 s2 ^^^ gfMul s0 s3) det
    let g2 := gfDiv (gfMul s2 s2 ^^^ gfMul s1 s3) det
    match (List.range 68).filter (fun t => decide (gfExp (gfPow t) 2 ^^^ gfMul g1 (gfPow t) ^^^ g2 = 0)) with
    | [t1, t2] =>
      let x1 := gfPow t1
      let x2 := gfPow t2
      let v1 := gfDiv (s1 ^^^ gfMul s0 x2) (x1 ^^^ x2)
      some [(t1, v1), (t2, s0 ^^^ v1)]
    | _ => none

/-- The corrections of at most two symbols that make a word of mark `m` a codeword, if there are any. -/
def fixesOf (m : Word32) : Option Fixes :=
  if m = 0 then some [] else
    let s := syndromes m.toNat
    match oneError s.1 s.2.1 s.2.2.1 s.2.2.2 with
    | some f => some f
    | none => twoErrors s.1 s.2.1 s.2.2.1 s.2.2.2

/-- The outcomes of reading a line (R381). -/
inductive LineOutcome where
  | clean
  | corrected (f : Fixes)
  | poisoned (f : Fixes)
  | uncorrectable
  deriving DecidableEq, Repr

/-- The decode table of R381, over the stored interpretation and the one with the poison syndrome removed. -/
def lineOutcome (m : Word32) : LineOutcome :=
  if m = 0 then .clean
  else if m = poisonMark then (match fixesOf m with | some _ => .uncorrectable | none => .poisoned [])
  else
    match fixesOf m, fixesOf (m ^^^ poisonMark) with
    | some f, none => .corrected f
    | none, some f => .poisoned f
    | _, _ => .uncorrectable

/-- Apply the corrections that fall on data bytes (position t holds data byte t − 4). -/
def fixBytes (f : Fixes) (l : List Byte) : List Byte :=
  f.foldl (fun l tv => if 4 ≤ tv.1 then l.modify (tv.1 - 4) (fun b => b ^^^ BitVec.ofNat 8 tv.2) else l) l

/-- The line as it is used and stored after a read (R381, R382): the data, corrected, and mark 0 or the poison mark. -/
def lineAfter (bytes : List Byte) (m : Word32) : List Byte × Word32 :=
  match lineOutcome m with
  | .clean => (bytes, 0)
  | .corrected f => (fixBytes f bytes, 0)
  | .poisoned f => (fixBytes f bytes, poisonMark)
  | .uncorrectable => (bytes, poisonMark)

/-- The matrix coefficient and row arithmetic of byte vectors: `a` times every byte. -/
def gfScale (a : Nat) (l : List Byte) : List Byte := l.map (fun b => BitVec.ofNat 8 (gfMul a b.toNat))

end Sys2Proof.Machine
end

