-- ==== Sys2Proof/Machine/Ops.lean ====
section
/-! DEFINITION. The named operations over stored lines: reading and decoding a line (R380-R383), storing one, the flip mask
(R414), the yard's slots and banks (R65-R71), the memory ports' transactions (R72-R77). -/
namespace Sys2Proof.Machine

/-- Where the stacks' bytes begin in the address space of `Memory`. -/
def stackBase : Nat := 2 ^ 54

/-- What a byte that is not listed reads as: zero in the yard (R491), a free value in a stack (R504). DEDUCED: log entry 13. -/
def unlistedByte (m : Memory) (a : Nat) : Byte := if a < stackBase then 0 else Config.freeStackByte m.gen a

/-- The model's read of one byte. -/
def readByte (m : Memory) (a : Nat) : Byte :=
  match smapGet m.cells a with
  | some b => b
  | none => unlistedByte m a

/-- The mark of the line at byte address `a`. -/
def markOf (m : Memory) (a : Nat) : Word32 :=
  match smapGet m.marks (a / 64) with
  | some w => w
  | none => if a < stackBase then 0 else Config.freeStackMark m.gen (a / 64)

/-- The stored line at byte address `a` (a multiple of 64). -/
def rawLine (m : Memory) (a : Nat) : Line :=
  let near := m.cells.filter (fun e => decide (a ≤ e.1 ∧ e.1 < a + 64))
  { bytes := (List.range 64).map (fun i => match smapGet near (a + i) with | some b => b | none => unlistedByte m (a + i)),
    mark := markOf m a }

/-- The cells that a byte string at address `a` lists: a zero byte of the yard is not listed. -/
def cellsOf (a : Nat) : List Byte → List Host.Cell
  | [] => []
  | b :: t => if a < stackBase ∧ b = 0 then cellsOf (a + 1) t else (a, b) :: cellsOf (a + 1) t

/-- Store a byte string at address `a`. -/
def putBytes (m : Memory) (a : Nat) (l : List Byte) : Memory :=
  { m with cells := m.cells.filter (fun e => decide (e.1 < a)) ++ cellsOf a l ++ m.cells.filter (fun e => decide (a + l.length ≤ e.1)) }

/-- Store the mark of a line: mark 0 of the yard is not listed. -/
def putMark (m : Memory) (a : Nat) (w : Word32) : Memory :=
  { m with marks := if a < stackBase ∧ w = 0 then smapErase m.marks (a / 64) else smapPut m.marks (a / 64) w }

/-- Store a line. -/
def putLine (m : Memory) (a : Nat) (l : Line) : Memory := putMark (putBytes m a l.bytes) a l.mark

/-- The memory's canonical form: cells and marks rise, and the yard lists no zero. DEDUCED: log entry 93. -/
def Memory.wf (m : Memory) : Bool :=
  keysRise m.cells && keysRise m.marks && m.cells.all (fun e => decide (stackBase ≤ e.1 ∨ e.2 ≠ 0)) &&
    m.marks.all (fun e => decide (stackBase ≤ e.1 * 64 ∨ e.2 ≠ 0))

/-- Store a line in the state as it is (a write-back, which carries no new data). -/
def storeLine (s : State) (a : Nat) (l : Line) : State := { s with mem := putLine s.mem a l }

/-- Byte address of line j of yard slot s. DESIGN CHOICE: log entry 14. -/
def yardAddr (slot j : Nat) : Nat := slot * 4096 + j * 64

/-- h(s) of R68. -/
def slotHash (s : Nat) : Nat :=
  (s % 8) ^^^ (s / 8 % 8) ^^^ (s / 64 % 8) ^^^ (s / 512 % 8) ^^^ (s / 4096 % 8) ^^^ (s / 32768 % 8) ^^^ (s / 262144 % 2)

/-- The bank of line j of slot s (R68). -/
def bankOf (slot j : Nat) : Nat := 64 * slotHash slot + j

/-- The bank of the yard line at byte address `a`. -/
def bankAt (a : Nat) : Nat := bankOf (a / 4096) (a / 64 % 64)

/-- Byte address, in `Memory`, of MP address `x` (R72). -/
def mpAddr (x : Nat) : Nat := stackBase + x

/-- MP address of byte b of the tile at offset o of port p (R72). -/
def mpTile (p o b : Nat) : Nat := p * 2 ^ 44 + o * 4096 + b

/-- Byte address of the metadata line of the tile at offset o on port p (R74). -/
def metaLineAddr (s : State) (p o : Nat) : Nat := mpAddr (p * 2 ^ 44 + reg s (K.MP_META_BASE p) * 4096 + o * 64)

/-- Byte address of the line that holds the metadata of yard slot s, and its offset in that line (R67). -/
def yardMetaAddr (slot : Nat) : Nat := (522240 + slot / 256) * 4096 + (slot % 256) * 16 / 64 * 64
def yardMetaOff (slot : Nat) : Nat := (slot % 256) * 16 % 64

/-- The line with the flip mask applied to its 68 bytes (R414). DEDUCED: log entry 18. -/
def flipLine (mask : List Byte) (l : Line) : Line :=
  { bytes := bytesXor l.bytes (bytesAt mask 0 64),
    mark := l.mark ^^^ rsEncode (bytesAt mask 0 64) ^^^ BitVec.ofNat 32 (leAt mask 64 4) }

/-- Whether the armed flip mask takes a line written to yard bank b. -/
def flipsBank (s : State) (b : Nat) : Bool :=
  decide (reg s K.FLIP_STATE = 1) && !(reg s K.FLIP_TARGET).testBit 9 && decide (bits (reg s K.FLIP_TARGET) 8 0 = b)

/-- Whether the armed flip mask takes line j of a tile write on port p. -/
def flipsPort (s : State) (p j : Nat) : Bool :=
  decide (reg s K.FLIP_STATE = 1) && (reg s K.FLIP_TARGET).testBit 9 && decide (bits (reg s K.FLIP_TARGET) 8 0 = p) &&
    decide (bits (reg s K.FLIP_TARGET) 15 10 = j)

/-- The mask has fired (R414). -/
def flipFired (s : State) : State := raise (setReg s K.FLIP_STATE 2) 0x17 stSAF 0 none true (reg s K.FLIP_TARGET)

/-- Write a line of the yard with new data: the armed mask takes it (R414). -/
def writeYardLine (s : State) (a : Nat) (l : Line) : State :=
  if flipsBank s (bankAt a) then flipFired (storeLine s a (flipLine (strN s K.FLIP_MASK 68) l)) else storeLine s a l

/-- Write line j of a tile at port p with new data. -/
def writePortLine (s : State) (p j a : Nat) (l : Line) : State :=
  if flipsPort s p j then flipFired (storeLine s a (flipLine (strN s K.FLIP_MASK 68) l)) else storeLine s a l

/-- What a line's read found. -/
inductive Found where
  | clean
  | corrected (symbols : Nat)
  | poisoned
  | uncorrectable
  deriving DecidableEq, Repr

/-- What the decode of a mark finds (R381). -/
def foundOf (m : Word32) : Found :=
  match lineOutcome m with
  | .clean => .clean
  | .corrected f => .corrected f.length
  | .poisoned _ => .poisoned
  | .uncorrectable => .uncorrectable

/-- Count what a read of the line at `a` found (R415, R465, R466) and raise LINE_UNCORRECTABLE (R397). A two-symbol
correction counts when it is verified (`count2`). DEDUCED: log entry 106. -/
def countFound (s : State) (a : Nat) (f : Found) : State :=
  let port := (a - stackBase) / 2 ^ 44
  match f with
  | .clean => s
  | .corrected n =>
    let s := lifeBump s (ltKey 8) 1
    if a < stackBase then
      let b := if binGet s 9 (bankAt a) = 2 ^ 32 - 1 then 512 else bankAt a
      binBump (if n = 1 then bump s K.RS_CORR1 1 else s) 9 b
    else bump s (K.MP_CORRECTED port) 1
  | .poisoned => if a < stackBase then bump s K.POISON_READ 1 else s
  | .uncorrectable =>
    let s := lifeBump s (ltKey 9) 1
    if a < stackBase then raise (bump s K.RS_UNCORR 1) 0x10 stSST (bankAt a / 64) none false (bankAt a)
    else raise (bump s (K.MP_UNCORRECTABLE port) 1) 0x10 stMP port none false (port + 32768)

/-- A line as a reader has it: the bytes, whether it is poisoned, and what the decode found. -/
structure GotLine where
  bytes : List Byte
  poison : Bool
  found : Found
  deriving DecidableEq, Repr

/-- The line at `a` decoded (R381), with no effect on what is stored. -/
def peekLine (m : Memory) (a : Nat) : GotLine :=
  let l := rawLine m a
  { bytes := (lineAfter l.bytes l.mark).1, poison := decide ((lineAfter l.bytes l.mark).2 ≠ 0), found := foundOf l.mark }

/-- Read the line at `a`: decode it, count, and write it back where the read changed it (R381, R382). `keepBad`: a line of a
coded data brick, which is never written back poisoned (R382), nor as a two-symbol correction that is not verified (R383). -/
def readLine (s : State) (a : Nat) (keepBad : Bool) : State × GotLine :=
  let l := rawLine s.mem a
  let g := peekLine s.mem a
  let s := countFound s a g.found
  match g.found with
  | .clean => (s, g)
  | .poisoned => (if l.mark = poisonMark then s else storeLine s a { bytes := g.bytes, mark := poisonMark }, g)
  | .corrected n => (if keepBad && decide (n = 2) then s else storeLine s a { bytes := g.bytes, mark := 0 }, g)
  | .uncorrectable => (if keepBad then s else storeLine s a { bytes := g.bytes, mark := poisonMark }, g)

/-- The stored form of a line carried with a poison mark or without (R387). -/
def carried (bytes : List Byte) (poison : Bool) : Line := { bytes := bytes, mark := if poison then poisonMark else 0 }

/-- A port is online: MP_STATE 1 and its domain aligned (R76, R360). -/
def portOnline (s : State) (p : Nat) : Bool := decide (reg s (K.MP_STATE p) = 1) && (reg s K.ALIGN_STATUS).testBit (p + 1)

/-- The verdict of the next transaction on port p; none queued completes. DEDUCED: log entry 19. -/
def takeVerdict (s : State) (p : Nat) : State × Verdict :=
  match smapGet s.verdicts p with
  | some (v :: t) => ({ s with verdicts := if t = [] then smapErase s.verdicts p else smapPut s.verdicts p t }, v)
  | _ => (s, .done)

/-- Count one failure of port p (R76). -/
def mpFailure (s : State) (p cause : Nat) : State :=
  raise (bump s (K.MP_FAILURES p) 1) 0x0F stMP p none false (p + cause * 256)

/-- One transaction on port p, with its one reissue (R76): the cause code of R91 where it fails. -/
def mpTransaction (s : State) (p : Nat) : State × Option Nat :=
  if !portOnline s p then (s, some 3)
  else
    match takeVerdict s p with
    | (s, .done) => (s, none)
    | (s, v) =>
      let s := mpFailure s p (if v = .error then 1 else 2)
      match takeVerdict s p with
      | (s, .done) => (s, none)
      | (s, w) => (mpFailure s p (if w = .error then 1 else 2), some (if w = .error then 1 else 2))

/-- DETAIL of FAIL_TIER (R91). -/
def tierDetail (cause port tier : Nat) : Nat := cause + port * 256 + tier * 4096

/-- Tokens a bucket holds; a bucket that nothing has drained is full (R371). `kind` 0 is the partition's, 1 the C0 bucket. -/
def bucketKey (kind part res : Nat) : Nat := kind * 65536 + part * 256 + res
def bucketDepth (s : State) (kind part res : Nat) : Nat :=
  if kind = 0 then reg s (K.REG_DEPTH part res)
  else if res = 0 then reg s K.C0_DEPTH_YARD else if res ≤ 16 then reg s K.C0_DEPTH_MP
  else if res = 17 then reg s K.C0_DEPTH_FP else reg s K.C0_DEPTH_EP
def bucketRate (s : State) (kind part res : Nat) : Nat := if kind = 0 then reg s (K.REG_RATE part res) else reg s K.C0_RATE_PERMIL
def tokensOf (s : State) (kind part res : Nat) : Nat :=
  (smapGet s.tokens (bucketKey kind part res)).getD (bucketDepth s kind part res)

/-- The peak of a resource in bytes per microsecond: the yard at the present speed, a port by its clock (R370). -/
def resourcePeak (s : State) (res : Nat) : Nat :=
  let f := fun bytes d => bytes * reg s (K.ALIGN_COUNTS d) * reg s K.TREF_HZ / (1000000 * max 1 (reg s (K.ALIGN_COUNTS 18)))
  if res = 0 then 16384000 * (speedNow s).1 / (speedNow s).2 else if res ≤ 16 then f 1024 res else if res = 17 then f 4096 17 else f 8192 0

/-- Home tier a resource belongs to, for TIER_REG_HOLD_NS (R371). -/
def resourceTier (res : Nat) : Option Nat := if res = 0 then some 0 else if res ≤ 16 then some 1 else if res = 17 then some 2 else none

/-- Take bytes from one bucket; where it holds too few, the unit waits until it has filled enough, and the wait counts
(R371, R372). -/
def takeTokens (s : State) (kind part res n : Nat) : State :=
  let rate := bucketRate s kind part res
  if kind = 0 ∧ 1000 ≤ rate then s
  else
    let have' := tokensOf s kind part res
    if n ≤ have' then { s with tokens := smapPut s.tokens (bucketKey kind part res) (have' - n) }
    else
      let hold := ceilDiv ((n - have') * 1000000) (max 1 (resourcePeak s res * rate))
      let s := { s with tokens := smapPut s.tokens (bucketKey kind part res) 0 }
      if kind = 0 then
        let s := bump s (K.REG_HOLD_NS part) hold
        match resourceTier res with
        | some t => bump s (K.TIER_REG_HOLD_NS t) hold
        | none => s
      else bump s K.C0_HOLD_NS hold

/-- Charge a unit of a partition and class at a resource (R370-R372). DEDUCED: log entry 92. -/
def charge (s : State) (part cls res n : Nat) : State :=
  let s := takeTokens s 0 part res n
  if cls = 0 then takeTokens s 1 0 res n else s

end Sys2Proof.Machine
end

