-- ==== Sys2Proof/Machine/Operands.lean ====
section
/-! DEFINITION. Operand forms: tiles by place and by name. Homes and the home map (R78-R85), whole-tile reads and writes with
the tile check (R383-R386), and the legacy write-back cache (R86-R88). -/
namespace Sys2Proof.Machine

/-- The null name (R38). -/
def nullName : Nat := 0xFFFFFFFFFFFF

/-- A range of names satisfies R38. -/
def rangeOk (first n : Nat) : Bool := decide (first < nullName) && decide (first + n ≤ nullName)

/-- Element count of a format code (R34). -/
def elemCount (f : Nat) : Nat :=
  match f with
  | 1 => 1024
  | 2 => 2048
  | 3 => 2048
  | 6 => 1024
  | _ => 4096

/-- Element size in bytes of a format code (R34). -/
def elemSize (f : Nat) : Nat := 4096 / elemCount f

/-- Rows of a format code's view (R34). -/
def fmtRows (f : Nat) : Nat := if elemCount f = 4096 then 64 else 32

/-- Columns of a format code's view (R34). -/
def fmtCols (f : Nat) : Nat := elemCount f / fmtRows f

/-- Metadata as 16 bytes (R35). -/
def metaBytes (m : TileMeta) : List Byte :=
  natLe 4 m.crc.toNat ++ natLe 4 (m.format % 16 + b2n m.transposed * 16 + m.valid * 256 % 2 ^ 21) ++ natLe 8 m.poison.toNat

/-- Metadata from its 16 bytes. VALID is bits [52:40], bits [20:8] of the second word. -/
def metaOf (b : List Byte) : TileMeta :=
  let w := leAt b 4 4
  { crc := BitVec.ofNat 32 (leAt b 0 4), format := w % 16, transposed := w.testBit 4, valid := bits w 20 8,
    poison := BitVec.ofNat 64 (leAt b 8 8) }

/-- A tile the block makes from its data, format and valid count, with a fresh CRC (R36, R385). -/
def mkTile (data : List Byte) (format valid : Nat) (poison : Word64) : Tile :=
  { data := data, info := { crc := BitVec.ofNat 32 (crc32c data), format := format, transposed := false, valid := valid, poison := poison } }

/-- The zero tile of a format (R81). -/
def zeroTile (format : Nat) : Tile := mkTile (zeros 4096) format (elemCount format) 0

/-- Line j of a tile. -/
def tileLine (t : Tile) (j : Nat) : List Byte := bytesAt t.data (64 * j) 64

/-- Whether line j is poisoned. -/
def tileBad (t : Tile) (j : Nat) : Bool := t.info.poison.getLsbD j

/-- The lines of a tile as they are carried (R387). -/
def tileLines (t : Tile) : List Line := (List.range 64).map (fun j => carried (tileLine t j) (tileBad t j))

/-- A set of bit positions as a 64-bit word. -/
def maskOf (l : List Nat) : Word64 := BitVec.ofNat 64 (l.foldl (fun a j => a ||| 2 ^ j) 0)

/-- The tile with every line poisoned (R386). -/
def poisonAll (t : Tile) : Tile := { t with info := { t.info with poison := BitVec.allOnes 64 } }

/-- Where a tile lies (R20, R78). -/
inductive Loc where
  | yard (slot : Nat)
  | stack (port : Nat) (off : Nat)
  | peer (window : Nat) (off : Nat)
  | none
  deriving DecidableEq, Repr

/-- The place a home entry names (R78). -/
def locOfEntry (e : Nat) : Loc :=
  if e % 4 = 0 then .yard (bits e 55 16)
  else if e % 4 = 1 then .stack (bits e 7 4) (bits e 55 16)
  else if e % 4 = 2 then .peer (bits e 15 8) (bits e 55 16)
  else .none

/-- The home entry of a place (R78). -/
def entryOfLoc : Loc → Nat
  | .yard s => s * 65536
  | .stack p o => 1 + p * 16 + o * 65536
  | .peer w o => 2 + w * 256 + o * 65536
  | .none => 3

/-- The home tier of a place. -/
def tierOfLoc : Loc → Nat
  | .yard _ => 0
  | .stack _ _ => 1
  | .peer _ _ => 2
  | .none => 3

/-- A partition's home map covers a name (R79). -/
def hmCovers (s : State) (q name : Nat) : Bool :=
  decide (reg s (K.HM_STATE q) = 1) && decide (reg s (K.HM_FIRST q) ≤ name) && decide (name < reg s (K.HM_FIRST q) + reg s (K.HM_NAMES q))

/-- The home entry of a name; unmapped where the map does not cover it (R79). -/
def entryOf (s : State) (q name : Nat) : Nat :=
  if hmCovers s q name then (smapGet s.homes.entries (q * 2 ^ 48 + name)).getD 3 else 3

/-- The place of a name's home. -/
def homeOf (s : State) (q name : Nat) : Loc := locOfEntry (entryOf s q name)

/-- The map line of a name, as a key of the map cache. -/
def mapLine (s : State) (q name : Nat) : Nat := q * 2 ^ 48 + (name - reg s (K.HM_FIRST q)) / 8

/-- Keep a line most recently used, within the region's capacity (R80). -/
def mapTouch (s : State) (key : Nat) : State :=
  { s with homes := { s.homes with lru := (key :: s.homes.lru.filter (fun k => decide (k ≠ key))).take (reg s K.SST_MAPCACHE_TILES * 64) } }

/-- Whether the home-map line at MP address `x` reads as other than poisoned or uncorrectable. -/
def mapLineReadable (s : State) (x : Nat) : Bool :=
  s.homes.inits.any (fun r => decide (r.1 ≤ x / 8 ∧ x / 8 < r.2)) || smapHas s.homes.words (x / 8) || !(peekLine s.mem (mpAddr (x / 64 * 64))).poison

/-- Read one line of a copy through its port (R73, R80): none, or the cause of R91, 5 where the line is uncorrectable. -/
def readMapLine (s : State) (copy idx : Nat) : State × Option Nat :=
  let x := copy + idx / 8 * 64
  match mpTransaction s (x / 2 ^ 44) with
  | (s, some c) => (s, some c)
  | (s, none) => (s, if mapLineReadable s x then none else some 5)

/-- DETAIL where a copy's line could not be had: its port's failure, or cause 5, which names tier 1 and port 0 (R80, R91). DESIGN CHOICE: log
entry 99. -/
def mapDetail (copy cause : Nat) : Nat := tierDetail cause (if cause = 5 then 0 else copy / 2 ^ 44) 1

/-- Bring a name's map line into the map cache: copy B is read only where copy A's line is uncorrectable; DETAIL of FAIL_TIER where a port
failed or both lines are uncorrectable (R76, R80). DEDUCED: log entry 20. -/
def mapFetch (s : State) (q name : Nat) : State × Option Nat :=
  let e := entryOf s q name
  let key := mapLine s q name
  if !hmCovers s q name || decide (e % 4 = 0) then (s, none)
  else if s.homes.lru.contains key then (mapTouch s key, none)
  else
    let idx := name - reg s (K.HM_FIRST q)
    match readMapLine s (reg s (K.HM_COPY_A q)) idx with
    | (s, none) => (mapTouch s key, none)
    | (s, some c) =>
      if c ≠ 5 then (s, some (mapDetail (reg s (K.HM_COPY_A q)) c))
      else
        match readMapLine s (reg s (K.HM_COPY_B q)) idx with
        | (s, none) => (mapTouch s key, none)
        | (s, some c) => (s, some (mapDetail (reg s (K.HM_COPY_B q)) c))

/-- Record an entry in both copies and in HOM's view. -/
def setEntry (s : State) (q name e : Nat) : State :=
  let idx := name - reg s (K.HM_FIRST q)
  let a := reg s (K.HM_COPY_A q) / 8 + idx
  let b := reg s (K.HM_COPY_B q) / 8 + idx
  let key := q * 2 ^ 48 + name
  let ent := if e % 4 = 3 then smapErase s.homes.entries key else smapPut s.homes.entries key e
  { s with homes := { s.homes with entries := ent, words := smapPut (smapPut s.homes.words a e) b e, away := smapErase s.homes.away key } }

/-- The words of one line of a copy of partition q's map, as HOM has them with the entries `l` made (R78). -/
def lineWords (s : State) (q copy line : Nat) (l : List (Nat × Nat)) : List (Nat × Nat) :=
  (rangeFrom (8 * line) (min 8 (reg s (K.HM_NAMES q) - 8 * line))).map (fun i =>
    let n := reg s (K.HM_FIRST q) + i
    (copy / 8 + i, match l.find? (fun e => decide (e.1 = n)) with | some e => e.2 | none => entryOf s q n))

/-- Write lines of one copy, each in a transaction of its own (R73): the DETAIL where its port fails one. -/
def writeMapLines (s : State) (q copy : Nat) (l : List (Nat × Nat)) : List Nat → State × Option Nat
  | [] => (s, none)
  | k :: t =>
    match mpTransaction s ((copy + 64 * k) / 2 ^ 44) with
    | (s, some c) => (s, some (mapDetail copy c))
    | (s, none) =>
      writeMapLines { s with homes := { s.homes with words := (lineWords s q copy k l).foldl (fun m e => smapPut m e.1 e.2) s.homes.words } } q copy l t

/-- Write the entries of a unit to copy A, to copy B and to the cache; the update counts as made only then (R80). DEDUCED: log entry 20. -/
def mapUpdate (s : State) (q : Nat) (l : List (Nat × Nat)) : State × Option Nat :=
  let lines := (l.map (fun e => (e.1 - reg s (K.HM_FIRST q)) / 8)).eraseDups
  match writeMapLines s q (reg s (K.HM_COPY_A q)) l lines with
  | (s, some d) => (s, some d)
  | (s, none) =>
    match writeMapLines s q (reg s (K.HM_COPY_B q)) l lines with
    | (s, some d) => (s, some d)
    | (s, none) => (l.foldl (fun s ne => let s := setEntry s q ne.1 ne.2; if ne.2 % 4 = 0 then s else mapTouch s (mapLine s q ne.1)) s, none)

/-- Tile slots of the fixed regions (R70, R71), counted down from slot 522,239. -/
def hodBase (s : State) : Nat := 522240 - reg s K.SST_HOD_TILES
def troughBase (s : State) : Nat := hodBase s - reg s K.SST_TROUGH_TILES
def retBase (s : State) : Nat := troughBase s - reg s K.SST_RETENTION_TILES
def mapBase (s : State) : Nat := retBase s - reg s K.SST_MAPCACHE_TILES

/-- First slot of partition q's write-back cache (R71). -/
def wbBase (s : State) (q : Nat) : Nat := mapBase s - ((rangeFrom q (16 - q)).map (fun p => reg s (K.WB_SLOTS p))).sum

/-- Slots of the home pool (R70). -/
def homePool (s : State) : Nat := wbBase s 0

/-- The yard slots that homes hold. -/
def usedSlots (s : State) : List Nat :=
  s.homes.entries.filterMap (fun e => match locOfEntry e.2 with | .yard k => some k | _ => none)

/-- The lowest free slots of the home pool, `n` of them, where there are as many. -/
def freeSlotsFrom (pool : Nat) : Nat → List Nat → Nat → List Nat
  | 0, _, _ => []
  | n + 1, used, lo =>
    let k := firstFree used (used.length + 1) lo
    if k < pool then k :: freeSlotsFrom pool n used (k + 1) else []

/-- The lowest aligned run of 16 free slots below the pool's end, from run number k. -/
def freeRun (pool : Nat) (used : List Nat) : Nat → Nat → Option Nat
  | 0, _ => none
  | fuel + 1, k =>
    if pool < 16 * k + 16 then none
    else if used.any (fun u => decide (u / 16 = k)) then freeRun pool used fuel (k + 1)
    else some (16 * k)

/-- Slots for a unit of one tile or of a brick (R71); empty where there is no room. -/
def allocSlots (s : State) (n : Nat) : List Nat :=
  let used := usedSlots s
  let some' := if n = 16 then (match freeRun (homePool s) used (used.length + 1) 0 with | some k => rangeFrom k 16 | none => freeSlotsFrom (homePool s) n used 0)
               else freeSlotsFrom (homePool s) n used 0
  if some'.length = n then some' else []

/-- The UNIT and DETAIL by which an event names a tile (R386). -/
structure Ident where
  unit : Nat
  detail : Nat
  deriving DecidableEq, Repr

def identName (name : Nat) : Ident := { unit := 0, detail := name % 2 ^ 32 }
def identSlot (slot : Nat) : Ident := { unit := 1, detail := slot }
def identStack (p o : Nat) : Ident := { unit := 0x10 + p, detail := o }
def identQueue (q : Nat) : Ident := { unit := 2, detail := q }

/-- Count and raise a failed tile check (R386). -/
def crcMismatch (s : State) (i : Ident) (part : Option Nat) : State :=
  raise (bump s K.CRC_MISMATCH 1) 0x11 stSTR i.unit part false i.detail

/-- The check of a tile that a port brings whole: one that fails is poisoned throughout (R385, R386). -/
def checkTile (s : State) (i : Ident) (part : Option Nat) (t : Tile) : State × Tile :=
  if t.info.poison = 0 ∧ t.info.crc ≠ BitVec.ofNat 32 (crc32c t.data) then (crcMismatch s i part, poisonAll t) else (s, t)

/-- What a whole-tile read gives: the tile, the lines that a coded data brick must have repaired, those of them that
are two-symbol corrections, and whether a port failed. -/
structure Got where
  tile : Tile
  repair : List Nat
  two : List Nat
  fail : Option Nat
  deriving DecidableEq, Repr

/-- Read the 64 data lines at addresses `base + 64j`. DEDUCED: log entry 17. -/
def readLines (s : State) (base : Nat) (keepBad : Bool) : List Nat → State × List GotLine
  | [] => (s, [])
  | j :: t =>
    let r := readLine s (base + 64 * j) keepBad
    let rest := readLines r.1 base keepBad t
    (rest.1, r.2 :: rest.2)

/-- The line numbers of a tile whose read satisfies `p`. -/
def linesWhere (ls : List GotLine) (p : GotLine → Bool) : List Nat :=
  (List.range 64).filter (fun j => match ls[j]? with | some l => p l | none => false)

/-- Two symbols were corrected. -/
def isCorr2 (l : GotLine) : Bool := decide (l.found = .corrected 2)

/-- Write every line of a stored tile back poisoned, as read (R386). -/
def poisonStored (s : State) (base : Nat) (ls : List GotLine) : State :=
  (List.range 64).foldl (fun s j => match ls[j]? with | some l => storeLine s (base + 64 * j) { bytes := l.bytes, mark := poisonMark } | none => s) s

/-- Whether a tile's lines and metadata are whole and its check agrees. -/
def tileSound (info : TileMeta) (ls : List GotLine) : Bool :=
  decide (info.poison = 0) && ls.all (fun l => !l.poison) && decide (crc32c (ls.map GotLine.bytes).flatten = info.crc.toNat)

/-- Judge a tile read from storage that is no coded data brick: the tile check, and the verification of two-symbol
corrections by it, its metadata's included (R383, R385, R386). A correction that no check can verify, because another line is poisoned, does
not stand. DEDUCED: log entry 16. -/
def judgeTile (s : State) (base : Nat) (info : TileMeta) (m : GotLine) (ls : List GotLine) (i : Ident) (part : Option Nat) : State × Tile :=
  let data := (ls.map GotLine.bytes).flatten
  let bad := maskOf (linesWhere ls GotLine.poison)
  let two := linesWhere ls isCorr2
  let count := two.length + b2n (isCorr2 m)
  let poison := if m.poison then BitVec.allOnes 64 else info.poison ||| bad
  let t : Tile := { data := data, info := { info with poison := poison } }
  if poison = 0 then
    if crc32c data = info.crc.toNat then (if base < stackBase then bump s K.RS_CORR2 count else s, t)
    else
      let s := bump s K.CORR2_VERIFY_FAIL count
      (crcMismatch (poisonStored s base ls) i part, poisonAll t)
  else if count = 0 then (s, t)
  else
    let poison := if isCorr2 m then BitVec.allOnes 64 else poison
    let s := bump s K.CORR2_VERIFY_FAIL count
    let s := two.foldl (fun s j => match ls[j]? with | some l => storeLine s (base + 64 * j) { bytes := l.bytes, mark := poisonMark } | none => s) s
    (s, { t with info := { t.info with poison := poison ||| maskOf two } })

/-- The lines of a coded data brick's tile that the repointer repairs (R308, R383, R386). -/
def codedRepairs (info : TileMeta) (metaBad : Bool) (ls : List GotLine) : List Nat :=
  let data := (ls.map GotLine.bytes).flatten
  let lines := linesWhere ls (fun l => l.poison || isCorr2 l)
  let marked := (List.range 64).filter (fun j => info.poison.getLsbD j)
  if metaBad then List.range 64
  else if lines = [] ∧ marked = [] ∧ crc32c data ≠ info.crc.toNat then List.range 64
  else (List.range 64).filter (fun j => lines.contains j || marked.contains j)

/-- Read a tile whose lines begin at `base` and whose metadata lies at offset `off` of the line at `ma`. Of a coded data brick a two-symbol
correction of the metadata stands where the tile's check agrees (R383). -/
def readTileAt (s : State) (base ma off : Nat) (coded : Bool) (i : Ident) (part : Option Nat) : State × Got :=
  let m := readLine s ma false
  let info := metaOf (bytesAt m.2.bytes off 16)
  let r := readLines m.1 base coded (List.range 64)
  if coded then
    let sound := tileSound info r.2
    let fix := codedRepairs info (m.2.poison || (isCorr2 m.2 && !sound)) r.2
    let data := (r.2.map GotLine.bytes).flatten
    let s := if isCorr2 m.2 then (if sound then (if base < stackBase then bump r.1 K.RS_CORR2 1 else r.1) else bump r.1 K.CORR2_VERIFY_FAIL 1) else r.1
    (s, { tile := { data := data, info := { info with poison := maskOf fix } }, repair := fix, two := linesWhere r.2 isCorr2, fail := none })
  else
    let j := judgeTile r.1 base info m.2 r.2 i part
    (j.1, { tile := j.2, repair := [], two := [], fail := none })

/-- Nothing read: a port failed. -/
def gotFail (d : Nat) : Got := { tile := zeroTile 0, repair := [], two := [], fail := some d }

/-- Read the tile of a yard slot. -/
def readSlot (s : State) (slot : Nat) (w : Who) (coded : Bool) (i : Ident) : State × Got :=
  let s := charge s w.part w.cls 0 4096
  readTileAt (bump s (K.TIER_READ_BYTES 0) 4096) (yardAddr slot 0) (yardMetaAddr slot) (yardMetaOff slot) coded i (some w.part)

/-- Read the tile at offset o of port p (R73). -/
def readStack (s : State) (p o : Nat) (w : Who) (coded : Bool) (i : Ident) : State × Got :=
  match mpTransaction s p with
  | (s, some c) => (s, gotFail (tierDetail c p 1))
  | (s, none) =>
    let s := charge s w.part w.cls (p + 1) 4096
    readTileAt (bump s (K.TIER_READ_BYTES 1) 4096) (mpAddr (mpTile p o 0)) (metaLineAddr s p o) 0 coded i (some w.part)

/-- Read the tile at a place of home tier 0 or 1. -/
def readLoc (s : State) (l : Loc) (w : Who) (coded : Bool) (i : Ident) : State × Got :=
  match l with
  | .yard k => readSlot s k w coded i
  | .stack p o => readStack s p o w coded i
  | .peer _ _ => (s, gotFail (tierDetail 4 0 2))
  | .none => (s, gotFail 0)

/-- Write 64 lines and metadata into a yard slot, and the metadata's line (R67). -/
def writeSlotLines (s : State) (slot : Nat) (ls : List Line) (info : TileMeta) (w : Who) : State :=
  let s := bump (charge s w.part w.cls 0 4096) (K.TIER_WRITE_BYTES 0) 4096
  let s := (List.range 64).foldl (fun s j => match ls[j]? with | some l => writeYardLine s (yardAddr slot j) l | none => s) s
  let ma := yardMetaAddr slot
  let m := readLine s ma false
  writeYardLine m.1 ma { bytes := bytesPut m.2.bytes (yardMetaOff slot) (metaBytes info), mark := 0 }

/-- Write a tile into a yard slot. -/
def writeSlot (s : State) (slot : Nat) (t : Tile) (w : Who) : State := writeSlotLines s slot (tileLines t) t.info w

/-- Write 64 lines and metadata at offset o of port p (R73, R74): the cause where the port fails. -/
def writeStackLines (s : State) (p o : Nat) (ls : List Line) (info : TileMeta) (w : Who) : State × Option Nat :=
  match mpTransaction s p with
  | (s, some c) => (s, some (tierDetail c p 1))
  | (s, none) =>
    let s := bump (charge s w.part w.cls (p + 1) 4096) (K.TIER_WRITE_BYTES 1) 4096
    let s := (List.range 64).foldl (fun s j => match ls[j]? with | some l => writePortLine s p j (mpAddr (mpTile p o (64 * j))) l | none => s) s
    (storeLine s (metaLineAddr s p o) { bytes := metaBytes info ++ zeros 48, mark := 0 }, none)

/-- Write a tile at offset o of port p. -/
def writeStack (s : State) (p o : Nat) (t : Tile) (w : Who) : State × Option Nat := writeStackLines s p o (tileLines t) t.info w

/-- Write a tile at a place of home tier 0 or 1. -/
def writeLoc (s : State) (l : Loc) (t : Tile) (w : Who) : State × Option Nat :=
  match l with
  | .yard k => (writeSlot s k t w, none)
  | .stack p o => writeStack s p o t w
  | .peer _ _ => (s, some (tierDetail 4 0 2))
  | .none => (s, some 0)

/-- A name lies in the partition's write-back range while the mode is on (R86). -/
def isWbName (s : State) (q name : Nat) : Bool :=
  decide (reg s (K.WB_SLOTS q) ≠ 0) && decide (reg s (K.WB_FIRST q) ≤ name) && decide (name < reg s (K.WB_FIRST q) + reg s (K.WB_NAMES q))

/-- MP address of a write-back name (R86). -/
def wbPhys (s : State) (q name : Nat) : Nat := reg s (K.WB_PHYS q) + (name - reg s (K.WB_FIRST q)) * 4096

/-- The cached tile of a name. -/
def wbFind (s : State) (q name : Nat) : Option WbTile := s.wb.find? (fun x => decide (x.part = q ∧ x.name = name))

/-- First slot of a name's set (R87). -/
def wbSet (s : State) (q name : Nat) : Nat :=
  wbBase s q + (name - reg s (K.WB_FIRST q)) % (reg s (K.WB_SLOTS q) / 16) * 16

/-- A use stamp later than every other. -/
def wbStamp (s : State) : Nat := s.wb.foldl (fun a x => max a (x.used + 1)) 0

/-- Replace what the cache records of a name. -/
def wbPut (s : State) (x : WbTile) : State :=
  { s with wb := x :: s.wb.filter (fun y => decide (¬ (y.part = x.part ∧ y.name = x.name))) }

/-- Drop a name from the cache. -/
def wbDrop (s : State) (q name : Nat) : State := { s with wb := s.wb.filter (fun y => decide (¬ (y.part = q ∧ y.name = name))) }

/-- Write one dirty tile back to its MP address, metadata included (R87, R88); the address counts in whole tiles. DESIGN CHOICE: log entry
99. -/
def wbWriteBack (s : State) (x : WbTile) (w : Who) : State × Option Nat :=
  let a := wbPhys s x.part x.name
  let r := readSlot s x.slot w false (identName x.name)
  match writeStack r.1 (a / 2 ^ 44) (a % 2 ^ 44 / 4096) r.2.tile w with
  | (s, some c) => (s, some c)
  | (s, none) => (wbPut (bump s K.WB_WRITEBACKS 1) { x with dirty := false }, none)

/-- A slot of the set for a new tile: a free way, or the least recently used tile's after its eviction (R87). -/
def wbPlace (s : State) (q name : Nat) (w : Who) : State × Except Nat Nat :=
  let base := wbSet s q name
  let inSet := s.wb.filter (fun x => decide (x.part = q ∧ base ≤ x.slot ∧ x.slot < base + 16))
  match (rangeFrom base 16).find? (fun k => !inSet.any (fun x => decide (x.slot = k))) with
  | some k => (s, .ok k)
  | none =>
    match inSet with
    | [] => (s, .ok base)
    | x0 :: t =>
      let v := t.foldl (fun a x => if x.used < a.used then x else a) x0
      if v.dirty then
        match wbWriteBack s v w with
        | (s, some c) => (s, .error c)
        | (s, none) => (wbDrop s q v.name, .ok v.slot)
      else (wbDrop s q v.name, .ok v.slot)

/-- Read a write-back name through HOM (R87). -/
def wbRead (s : State) (q name : Nat) (w : Who) : State × Got :=
  match wbFind s q name with
  | some x =>
    let s := wbPut (bump s K.WB_HITS 1) { x with used := wbStamp s }
    readSlot s x.slot w false (identName name)
  | none =>
    let s := bump s K.WB_MISSES 1
    match wbPlace s q name w with
    | (s, .error c) => (s, gotFail c)
    | (s, .ok k) =>
      let a := wbPhys s q name
      let r := readStack s (a / 2 ^ 44) (a % 2 ^ 44 / 4096) w false (identName name)
      match r.2.fail with
      | some _ => r
      | none => (wbPut (writeSlot r.1 k r.2.tile w) { part := q, name := name, slot := k, dirty := false, used := wbStamp r.1 }, r.2)

/-- Write a write-back name through HOM: the whole tile, marked dirty (R87). -/
def wbWrite (s : State) (q name : Nat) (t : Tile) (w : Who) : State × Option Nat :=
  match wbFind s q name with
  | some x => (wbPut (writeSlot (bump s K.WB_HITS 1) x.slot t w) { x with dirty := true, used := wbStamp s }, none)
  | none =>
    match wbPlace (bump s K.WB_MISSES 1) q name w with
    | (s, .error c) => (s, some c)
    | (s, .ok k) => (wbPut (writeSlot s k t w) { part := q, name := name, slot := k, dirty := true, used := wbStamp s }, none)

/-- Whether every tile of a range is homed in the yard. -/
def yardHomed (s : State) (q first n : Nat) : Bool :=
  (List.range n).all (fun i => decide (tierOfLoc (homeOf s q (first + i)) = 0))

/-- The yard slot of a name. -/
def slotOf (s : State) (q name : Nat) : Option Nat := match homeOf s q name with | .yard k => some k | _ => none

/-- Whether a yard slot's tile verifies a two-symbol correction of one of its lines: no line of it is poisoned, and its check agrees (R383). -/
def slotVerifies (s : State) (k : Nat) : Bool :=
  let ls := (List.range 64).map (fun j => peekLine s.mem (yardAddr k j))
  let m := peekLine s.mem (yardMetaAddr k)
  !m.poison && tileSound (metaOf (bytesAt m.bytes (yardMetaOff k) 16)) ls

/-- The bytes at byte offset `o`, `n` of them inside one line, of a yard-homed structure that begins at tile `first`; none where their line
reads poisoned, a two-symbol correction of it does not stand, or it is not there. -/
def structBytes (s : State) (q first o n : Nat) : Option (List Byte) :=
  match slotOf s q (first + o / 4096) with
  | some k =>
    let g := peekLine s.mem (yardAddr k (o % 4096 / 64))
    if g.poison || (isCorr2 g && !slotVerifies s k) then none else some (bytesAt g.bytes (o % 64) n)
  | none => none

/-- A read of the line that holds byte offset `o` of such a structure, with the read's own effects (R381, R382); the rest of the tile is read
to verify a two-symbol correction (R383). -/
def structTouch (s : State) (q first o : Nat) : State :=
  match slotOf s q (first + o / 4096) with
  | some k =>
    let a := yardAddr k (o % 4096 / 64)
    if isCorr2 (peekLine s.mem a) then (readTileAt s (yardAddr k 0) (yardMetaAddr k) (yardMetaOff k) false (identName (first + o / 4096)) (some q)).1
    else (readLine s a false).1
  | none => s

/-- Write bytes inside one line of a yard-homed structure: the line, and its tile's CRC, are made anew (R385). -/
def structWrite (s : State) (q first o : Nat) (b : List Byte) : State :=
  match slotOf s q (first + o / 4096) with
  | none => s
  | some k =>
    let a := yardAddr k (o % 4096 / 64)
    let s := structTouch s q first o
    let g := peekLine s.mem a
    let bad := g.poison && decide (b.length < 64)
    let s := writeYardLine s a (carried (bytesPut g.bytes (o % 64) b) bad)
    let data := ((List.range 64).map (fun j => (peekLine s.mem (yardAddr k j)).bytes)).flatten
    let ma := yardMetaAddr k
    let m := readLine s ma false
    let info := metaOf (bytesAt m.2.bytes (yardMetaOff k) 16)
    let poison := setBit info.poison.toNat (o % 4096 / 64) bad
    let info := { info with crc := BitVec.ofNat 32 (crc32c data), poison := BitVec.ofNat 64 poison }
    writeYardLine m.1 ma { bytes := bytesPut m.2.bytes (yardMetaOff k) (metaBytes info), mark := 0 }

/-- An input of host-assisted work as RAW tiles: 4,096 bytes to a tile, and VALID the bytes that a tile holds. -/
def hostTiles (b : List Byte) : List Tile :=
  (List.range (max 1 (ceilDiv b.length 4096))).map (fun i => mkTile (bytesAt b (4096 * i) 4096) 0 (min 4096 (b.length - 4096 * i)) 0)

/-- Work of a function in host-assisted mode (R25): the inputs go out whole through EP, each in RAW tiles of its own, with token 0 and
ordinals from 0, to the first queue of the work's partition and class, and the host returns `n` bytes, which are free values.
DESIGN CHOICE: log entry 60. -/
def hostWork (s : State) (w : Who) (inputs : List (List Byte)) (n : Nat) : State × List Byte :=
  let ts := inputs.flatMap hostTiles
  let out := (List.zip (List.range ts.length) ts).map (fun e =>
    { queue := 4 * w.part + w.cls, token := 0, ordinal := e.1, tile := e.2, varied := false, sid := 0, who := w : OutTile })
  let (s, d) := draw { s with epOut := s.epOut ++ out }
  (s, (List.range n).map (Config.hostByte d))

end Sys2Proof.Machine
end

