-- ==== Sys2Proof/Machine/Elems.lean ====
section
/-! DEFINITION. The elements of tiles (R34): reading and packing them, and the conversions of R46 and R99, R100. -/
namespace Sys2Proof.Machine

/-- The little-endian elements of `n` bytes each that a byte string holds. -/
def elemsFrom (n : Nat) : Nat → List Byte → List Nat
  | 0, _ => []
  | fuel + 1, l => if l = [] then [] else leNat (l.take n) :: elemsFrom n fuel (l.drop n)

/-- The elements of a tile's data in a format. -/
def elems (format : Nat) (data : List Byte) : List Nat := elemsFrom (elemSize format) (elemCount format) data

/-- The elements packed at `n` bytes each. -/
def packElems (n : Nat) (es : List Nat) : List Byte := es.flatMap (natLe n)

/-- The FP32 words of an FP32 tile. -/
def words32 (data : List Byte) : List Word32 := (elemsFrom 4 1024 data).map (BitVec.ofNat 32)

/-- The bytes of FP32 words. -/
def bytes32 (ws : List Word32) : List Byte := ws.flatMap (fun w => natLe 4 w.toNat)

/-- The elements with those from index `v` on made zero (R36). -/
def zeroFrom (v : Nat) (es : List Nat) : List Nat := es.take v ++ List.replicate (es.length - v) 0

/-- Count the narrowings of R115. -/
def countNarrow (s : State) (l : List Narrowed) : State :=
  let a := (l.filter Narrowed.saturated).length
  let b := (l.filter Narrowed.overflowed).length
  let s := if a = 0 then s else bump s K.NARROW_SATURATED a
  if b = 0 then s else bump s K.NARROW_OVERFLOW b

/-- Tiles of FP32 that one tile of a format holds, as R46 names n. -/
def tilesPer (f : Nat) : Nat := elemCount f / 1024

/-- Valid elements of a group narrowed together, of `e` elements each: up to the last valid one (R46). -/
def groupValid (e : Nat) (vs : List Nat) : Nat :=
  (List.range vs.length).foldl (fun a j => match vs[j]? with | some v => if v = 0 then a else j * e + v | none => a) 0

/-- The lines of a tile of `n`-byte elements that hold an element whose source is bad. -/
def badLines (n : Nat) (bad : Nat → Bool) : Word64 :=
  maskOf ((List.range 64).filter (fun l => (List.range (64 / n)).any (fun i => bad (l * (64 / n) + i))))

/-- Element i of a run of tiles of `n`-byte elements lies in a poisoned line. -/
def badElem (n : Nat) (ts : List Tile) (i : Nat) : Bool :=
  match ts[i * n / 4096]? with
  | some t => tileBad t (i * n % 4096 / 64)
  | none => false

/-- n source tiles of FP32 narrowed to one tile (R46). -/
def narrowTiles (f : Fmt) (code : Nat) (ts : List Tile) : Tile × List Narrowed :=
  let ns := (ts.flatMap (fun t => words32 t.data)).map (narrow f)
  let v := groupValid 1024 (ts.map (fun t => t.info.valid))
  (mkTile (packElems (elemSize code) (zeroFrom v (ns.map Narrowed.value))) code v (badLines (elemSize code) (badElem 4 ts)), ns)

/-- One tile widened to n tiles of FP32 (R46). -/
def widenTile (f : Fmt) (code : Nat) (t : Tile) : List Tile :=
  let es := (elems code t.data).map (widen f)
  (List.range (tilesPer code)).map (fun u =>
    let v := min 1024 (t.info.valid - u * 1024)
    mkTile (packElems 4 (zeroFrom v (((es.drop (u * 1024)).take 1024).map BitVec.toNat))) 1 v
      (badLines 4 (fun i => badElem (elemSize code) [t] (u * 1024 + i))))

end Sys2Proof.Machine
end

