-- ==== Sys2Proof/Machine/Fabric.lean ====
section
/-! DEFINITION. Sending on the fabric port: packets and their header (R319-R321), windows (R323, R324), request tags (R331),
and the tables that name peers (R181, R234, R337). -/
namespace Sys2Proof.Machine

/-- A packet with every field zero. -/
def pkt0 : Packet :=
  { level := 0, type := 0, combined := false, whole := false, partition := 0, src := 0, dst := 0, tag := 0, status := 0, address := 0,
    lines := 0, mapEpoch := 0, frag := 0, w4 := 0, w5 := 0, w6 := 0, seq := 0, hdrCrc := 0, payload := [] }

/-- Bytes 0 to 59 of a packet's header (R319). -/
def hdrBytes (p : Packet) : List Byte :=
  natLe 8 (p.level + p.type * 16 + b2n p.combined * 1024 + b2n p.whole * 2048 + p.partition * 4096 + p.src * 65536) ++
  natLe 8 (p.dst + p.tag * 2 ^ 32 + p.status * 2 ^ 56) ++
  natLe 8 (p.address + p.lines * 2 ^ 48) ++
  natLe 8 (p.mapEpoch + p.frag * 2 ^ 48) ++
  natLe 8 p.w4.toNat ++ natLe 8 p.w5.toNat ++ natLe 8 p.w6.toNat ++ natLe 4 p.seq

/-- The packet with its header CRC. -/
def sealHdr (p : Packet) : Packet := { p with hdrCrc := BitVec.ofNat 32 (crc32c (hdrBytes p)) }

/-- FP receives: the link is up and its domain aligned (R360, R485). -/
def fpUp (s : State) : Bool := s.pins.fpUp && (reg s K.ALIGN_STATUS).testBit 17

/-- FP also sends: the block has an identifier (R317). -/
def fpOpen (s : State) : Bool := fpUp s && decide (reg s K.FP_NODE_ID ≠ 0)

/-- Packets whose payload passes no bucket of R370 (R373). -/
def unregulated (type : Nat) : Bool := [0x15, 0x17, 0x24, 0x30].contains type

/-- Put a packet on FP: it is sent where FP is open. -/
def sendPacket (s : State) (p : Packet) (w : Who) : State :=
  if fpOpen s then
    let p := sealHdr { p with src := reg s K.FP_NODE_ID }
    let s := if p.payload = [] || unregulated p.type then s else charge s w.part w.cls 17 (64 * p.payload.length)
    let s := bump s K.FP_TX_PACKETS 1
    { s with fabric := { s.fabric with out := s.fabric.out ++ [p] } }
  else s

/-- Lines per fragment at a protocol level (R335). -/
def fragLines (level : Nat) : Nat := if level = 3 then 16 else 64

/-- A payload cut into runs of `n` lines. -/
def chunks (n : Nat) : Nat → List Line → List (List Line)
  | 0, _ => []
  | _, [] => []
  | fuel + 1, l => l.take n :: chunks n fuel (l.drop n)

/-- A byte string as clean lines, the last padded with zero (R321). -/
def linesOf : Nat → List Byte → List Line
  | 0, _ => []
  | fuel + 1, l => if l = [] then [] else carried (bytesAt l 0 64) false :: linesOf fuel (l.drop 64)

/-- A byte string as lines. -/
def asLines (l : List Byte) : List Line := linesOf (l.length / 64 + 1) l

/-- The data of a run of lines, decoded, and the numbers of those that are poisoned. -/
def lineData (l : List Line) : List Byte := (l.map (fun x => (lineAfter x.bytes x.mark).1)).flatten
def lineBad (l : List Line) : List Nat :=
  (List.range l.length).filter (fun i => match l[i]? with | some x => decide ((lineAfter x.bytes x.mark).2 ≠ 0) | none => false)

/-- Send a payload in fragments (R321); an empty payload is one fragment with no lines. -/
def sendFrags (s : State) (p : Packet) (l : List Line) (w : Who) : State :=
  if l = [] then sendPacket s p w
  else
    let cs := chunks (fragLines p.level) (l.length + 1) l
    (List.range cs.length).foldl (fun s i => match cs[i]? with | some c => sendPacket s { p with frag := i, lines := c.length, payload := c } w | none => s) s

/-- A window table entry (R323). -/
structure Win where
  node : Nat
  part : Nat
  rd : Bool
  wr : Bool
  at_ : Bool
  valid : Bool
  base : Nat
  size : Nat
  deriving DecidableEq, Repr

/-- The window table's entry for window w; not VALID where its line is poisoned or not there (R323, R388). -/
def windowOf (s : State) (q w : Nat) : Win :=
  match structBytes s q (reg s (K.WIN_TABLE q) % 2 ^ 48) (w * 16) 16 with
  | some b =>
    let x := leAt b 0 8
    let y := leAt b 8 8
    { node := x % 2 ^ 32, part := bits x 35 32, rd := x.testBit 36, wr := x.testBit 37, at_ := x.testBit 38, valid := x.testBit 39,
      base := y % 2 ^ 36, size := bits y 63 36 }
  | none => { node := 0, part := 0, rd := false, wr := false, at_ := false, valid := false, base := 0, size := 0 }

/-- Request tags in use (R331). -/
def tagsUsed (s : State) : List Nat := s.fabric.reqs.map Req.tag

/-- The lowest free tag. -/
def freeTag (s : State) : Option Nat :=
  let t := firstFree (tagsUsed s) (s.fabric.reqs.length + 1) 0
  if t < 16384 then some t else none

/-- The next store number towards a node and partition (R327). -/
def nextSeq (s : State) (node part : Nat) : State × Nat :=
  let n := (smapGet s.fabric.txSeq (node * 16 + part)).getD 0
  ({ s with fabric := { s.fabric with txSeq := smapPut s.fabric.txSeq (node * 16 + part) ((n + 1) % 2 ^ 32) } }, n)

/-- What came of a request (R324, R331). -/
inductive Sent where
  | sent
  | noTag
  | refused
  deriving DecidableEq, Repr

/-- A request waits for a tag (R331). -/
def tagAwaited (s : State) (use : ReqUse) : State :=
  if s.fabric.tagWaits.contains use then s else { s with fabric := { s.fabric with tagWaits := s.fabric.tagWaits ++ [use] } }

/-- Issue a request under a free tag, or have it wait for one (R331). -/
def issue (s : State) (p : Packet) (op : Nat) (use : ReqUse) (w : Who) : State × Sent :=
  match freeTag s with
  | none => (tagAwaited s use, .noTag)
  | some t =>
    let s := { s with fabric := { s.fabric with tagWaits := s.fabric.tagWaits.filter (fun u => decide (u ≠ use)) } }
    let r : Req := { tag := t, type := p.type, op := op, lines := if p.type = 0x01 then p.w4.toNat else p.lines, node := p.dst, use := use }
    (sendPacket { s with fabric := { s.fabric with reqs := s.fabric.reqs ++ [r] } } { p with tag := t } w, .sent)

/-- Refuse a request at the window (R324). -/
def windowRefused (s : State) : State := bump s K.FP_WINDOW_REFUSED 1

/-- The checks of R324 on a request at tile offset o. -/
def windowAllows (s : State) (q : Nat) (x : Win) (right : Bool) (o : Nat) : Bool :=
  decide (reg s (K.WIN_STATE q) = 1) && x.valid && right && decide (o < x.size)

/-- Load a whole tile through a window (R324, R326). DEDUCED: log entry 57. -/
def sendLoad (s : State) (q win o : Nat) (use : ReqUse) (w : Who) : State × Sent :=
  let x := windowOf s q win
  if windowAllows s q x x.rd o then
    issue s { pkt0 with level := reg s (K.FP_LEVEL q), type := 0x01, whole := true, partition := x.part, dst := x.node,
                        address := (x.base + o) * 4096, w4 := 64 } 0 use w
  else (windowRefused s, .refused)

/-- A request of another block's that changes the tile at a name homed in a peer is between its load and its store: until that store is
answered no other tile write of this block goes there (R59, R326, R328). -/
def relayHolds (s : State) (q name : Nat) : Bool :=
  let mine := fun (p : Packet) => decide (p.type ≠ 0x01 ∧ p.partition = q ∧ reg s (K.APERTURE_FIRST q) % 2 ^ 48 + p.address / 4096 = name)
  s.fabric.reqs.any (fun r => match r.use with | .relay p => mine p | .relayed p _ => mine p | _ => false)

/-- Stores to a node are unanswered. -/
def storesOut (s : State) (node : Nat) : Bool := s.fabric.reqs.any (fun r => decide (r.node = node ∧ r.type = 0x02))

/-- Store a whole tile through a window (R324, R326, R327). -/
def sendStore (s : State) (q win o : Nat) (t : Tile) (use : ReqUse) (w : Who) : State × Sent :=
  let x := windowOf s q win
  if windowAllows s q x x.wr o then
    match freeTag s with
    | none => (tagAwaited s use, .noTag)
    | some _ =>
      let n := nextSeq s x.node x.part
      issue n.1 { pkt0 with level := reg s (K.FP_LEVEL q), type := 0x02, whole := true, partition := x.part, dst := x.node,
                            address := (x.base + o) * 4096, lines := 64, w4 := BitVec.ofNat 64 (leAt (metaBytes t.info) 0 8),
                            w5 := BitVec.ofNat 64 (leAt (metaBytes t.info) 8 8), seq := n.2, payload := tileLines t } 0 use w
  else (windowRefused s, .refused)

/-- Send a packet of type 0x10 or above to the block a window names: VALID alone is checked (R323). -/
def sendThrough (s : State) (q win : Nat) (p : Packet) (l : List Line) (w : Who) : State :=
  let x := windowOf s q win
  if x.valid then
    sendFrags s { p with level := reg s (K.FP_LEVEL q), partition := x.part, dst := x.node, mapEpoch := if p.type < 0x30 then reg s (K.MAP_EPOCH q) else 0 } l w
  else windowRefused s

/-- Rank r's entry of the member table; none where it is not VALID or its line is poisoned (R234, R388). -/
def memberEntry (s : State) (q r : Nat) : Option Nat :=
  match structBytes s q (reg s (K.MEMBER_TABLE q) % 2 ^ 48) (8 * r) 8 with
  | some b => if (leAt b 0 8).testBit 8 then some (leAt b 0 8) else none
  | none => none

/-- The node of rank r. -/
def memberNode (s : State) (q r : Nat) : Option Nat := (memberEntry s q r).map (fun e => bits e 47 16)

/-- Send a wythe packet to rank r; without its entry it is not sent (R388). -/
def sendRank (s : State) (q r : Nat) (p : Packet) (l : List Line) (w : Who) : State :=
  match memberEntry s q r with
  | some e => sendThrough s q (e % 256) p l w
  | none => s

/-- Position p's node in the barrier table; none where its line is poisoned (R337, R388). -/
def positionNode (s : State) (q p : Nat) : Option Nat :=
  match structBytes s q (reg s (K.BG_TABLE q) % 2 ^ 48) (4 * p) 4 with
  | some b => some (leAt b 0 4)
  | none => none

/-- Send a packet straight to a node, naming a partition. -/
def sendNode (s : State) (q node : Nat) (p : Packet) (l : List Line) (w : Who) : State :=
  sendFrags s { p with level := reg s (K.FP_LEVEL q), partition := q, dst := node, mapEpoch := if 0x10 ≤ p.type ∧ p.type < 0x30 then reg s (K.MAP_EPOCH q) else 0 } l w

/-- The class and deadline of work done for an arriving packet: C1, and the time at which it is done here (R366). DEDUCED: log entry 105. -/
def arrivalWho (s : State) (q : Nat) : Who := { part := q, cls := 1, deadline := nowDeadline s }

end Sys2Proof.Machine
end

