-- ==== Sys2Proof/Machine/Packed.lean ====
section
/-! DEFINITION. Packed deltas (R246-R248). -/
namespace Sys2Proof.Machine

/-- Non-zero bytes of a line. -/
def nonZero (l : List Byte) : List Byte := l.filter (fun b => decide (b ≠ 0))

/-- The class of a line (R246): 0 zero, 1 sparse, 2 raw. -/
def lineClass (l : List Byte) : Nat :=
  if (nonZero l).length = 0 then 0 else if (nonZero l).length ≤ 55 then 1 else 2

/-- The mask of a sparse line: bit t for byte t. -/
def sparseMask : List Byte → Nat
  | [] => 0
  | b :: t => b2n (decide (b ≠ 0)) + 2 * sparseMask t

/-- The payload of a line (R247). -/
def packLine (l : List Byte) : List Byte :=
  if lineClass l = 0 then [] else if lineClass l = 1 then natLe 8 (sparseMask l) ++ nonZero l else l

/-- The lines of a tile's data. -/
def linesIn (data : List Byte) : List (List Byte) := (List.range 64).map (fun j => bytesAt data (64 * j) 64)

/-- The class map of a list of lines, two bits each. -/
def classMap : List (List Byte) → Nat
  | [] => 0
  | l :: t => lineClass l + 4 * classMap t

/-- A packed tile (R247). -/
def packTile (data : List Byte) : List Byte :=
  natLe 16 (classMap (linesIn data)) ++ ((linesIn data).map packLine).flatten

/-- A packed brick of 16 tiles' data; the empty delta where it is zero throughout (R248). -/
def packBrick (tiles : List (List Byte)) : List Byte :=
  if tiles.all allZero then [] else (tiles.map packTile).flatten

/-- Spread bytes over the set bits of a mask; zero elsewhere. -/
def spread : Nat → Nat → List Byte → List Byte
  | 0, _, _ => []
  | n + 1, mask, bs =>
    if mask % 2 = 1 then
      match bs with
      | b :: t => b :: spread n (mask / 2) t
      | [] => 0 :: spread n (mask / 2) []
    else 0 :: spread n (mask / 2) bs

/-- Set bits of a 64-bit mask. -/
def popCount : Nat → Nat → Nat
  | 0, _ => 0
  | n + 1, x => x % 2 + popCount n (x / 2)

/-- Unpack one line of a class; none where it is malformed (R249). -/
def unpackLine (cls : Nat) (l : List Byte) : Option (List Byte × List Byte) :=
  if cls = 0 then some (zeros 64, l)
  else if cls = 1 then
    let mask := leAt l 0 8
    let n := popCount 64 mask
    if l.length < 8 + n ∨ n = 0 ∨ 55 < n then none else some (spread 64 mask ((l.drop 8).take n), l.drop (8 + n))
  else if cls = 2 then (if l.length < 64 then none else some (l.take 64, l.drop 64))
  else none

/-- Unpack `n` lines whose classes a map gives. -/
def unpackLines : Nat → Nat → List Byte → Option (List Byte × List Byte)
  | 0, _, l => some ([], l)
  | n + 1, map, l =>
    match unpackLine (map % 4) l with
    | none => none
    | some (d, rest) =>
      match unpackLines n (map / 4) rest with
      | none => none
      | some (ds, rest) => some (d ++ ds, rest)

/-- Unpack `n` tiles. -/
def unpackTiles : Nat → List Byte → Option (List (List Byte) × List Byte)
  | 0, l => some ([], l)
  | n + 1, l =>
    if l.length < 16 then none
    else
      match unpackLines 64 (leAt l 0 16) (l.drop 16) with
      | none => none
      | some (d, rest) =>
        match unpackTiles n rest with
        | none => none
        | some (ds, rest) => some (d :: ds, rest)

/-- The 16 tiles' data of a packed brick; none where it is malformed (R249). -/
def unpackBrick (l : List Byte) : Option (List (List Byte)) :=
  if l = [] then some (List.replicate 16 (zeros 4096))
  else
    match unpackTiles 16 l with
    | some (ds, []) => some ds
    | _ => none

end Sys2Proof.Machine
end

