-- ==== Sys2Proof/Machine/Wythe.lean ====
section
/-! DEFINITION. The wythe map, the bond and the generator (R230-R240), ranks (R290), mortar headers (R250, R251, R262), and
the coded and gradient ranges. A course number from C upward names a gradient course, less C. -/
namespace Sys2Proof.Machine

/-- The partition carries a wythe map. -/
def hasWythe (s : State) (q : Nat) : Bool := decide (reg s (K.WYTHE_STATE q) = 1)

def wyK (s : State) (q : Nat) : Nat := reg s (K.WYTHE_K q)
def wyM (s : State) (q : Nat) : Nat := reg s (K.WYTHE_M q)
def wyN (s : State) (q : Nat) : Nat := wyK s q + wyM s q
def ownRank (s : State) (q : Nat) : Nat := reg s (K.WYTHE_RANK q)
def codedFirst (s : State) (q : Nat) : Nat := reg s (K.CODED_FIRST q) % 2 ^ 48
def codedCourses (s : State) (q : Nat) : Nat := reg s (K.CODED_COURSES q)
def gradFirst (s : State) (q : Nat) : Nat := reg s (K.GRAD_FIRST q) % 2 ^ 48
def gradCourses (s : State) (q : Nat) : Nat := reg s (K.GRAD_COURSES q)

/-- State of rank r (R290): 0 LIVE, 1 LOST, 2 SPARE, 3 EXCUSED. -/
def rankState (s : State) (q r : Nat) : Nat := leAt (strN s (K.RANK_STATES q) 32) r 1

/-- Set the state of rank r. -/
def setRank (s : State) (q r v : Nat) : State :=
  setStr s (K.RANK_STATES q) (bytesPut (strN s (K.RANK_STATES q) 32) r [BitVec.ofNat 8 v])

/-- A spare's rows are ready in the partition's epoch (R304). -/
def rankReady (s : State) (q r : Nat) : Bool := s.members.ready.contains (q, r, reg s (K.EPOCH q))

/-- The course as its own range numbers it. -/
def ownCourse (s : State) (q c : Nat) : Nat := if c < codedCourses s q then c else c - codedCourses s q

/-- The band of a course (R236, R261). -/
def bandOf (s : State) (q c : Nat) : Nat := ownCourse s q c >>> reg s (K.BOND_SHIFT q)

/-- h(b, j): the holder of row j (R236). -/
def holderOf (s : State) (q c j : Nat) : Nat := (bandOf s q c * wyM s q + j) % wyN s q

/-- The row that rank r holds in course c, if any. -/
def rowOf (s : State) (q c r : Nat) : Option Nat := (List.range (wyM s q)).find? (fun j => decide (holderOf s q c j = r))

/-- i(r, b): the data index of a data member (R236). -/
def dataIndex (s : State) (q c r : Nat) : Nat := (r + (bandOf s q c + 1) * wyM s q * (wyN s q - 1)) % wyN s q

/-- Rank r is a data member of course c. -/
def isData (s : State) (q c r : Nat) : Bool := decide (r < wyN s q) && (rowOf s q c r).isNone

/-- The data members of course c, ascending rank. -/
def dataRanks (s : State) (q c : Nat) : List Nat := (List.range (wyN s q)).filter (isData s q c)

/-- The data-member mask of a course. -/
def dataMask (s : State) (q c : Nat) : Nat := (dataRanks s q c).foldl (fun a r => a ||| 2 ^ r) 0

/-- g(j, i) (R240). -/
def genCoef (j i : Nat) : Nat := gfPow (j * i)

/-- A row is absent while its holder is LOST, or SPARE and not ready (R290). -/
def rowAbsent (s : State) (q c j : Nat) : Bool :=
  let h := holderOf s q c j
  decide (rankState s q h = 1) || (decide (rankState s q h = 2) && !rankReady s q h)

/-- The rows of a course that are not absent, ascending. -/
def liveRows (s : State) (q c : Nat) : List Nat := (List.range (wyM s q)).filter (fun j => !rowAbsent s q c j)

/-- The first name of course c's brick. -/
def brickName (s : State) (q c : Nat) : Nat :=
  if c < codedCourses s q then codedFirst s q + 16 * c else gradFirst s q + 16 * (c - codedCourses s q)

/-- The coded course of a name. -/
def codedCourse (s : State) (q name : Nat) : Option Nat :=
  if hasWythe s q && decide (codedFirst s q ≤ name) && decide (name < codedFirst s q + 16 * codedCourses s q)
  then some ((name - codedFirst s q) / 16) else none

/-- The gradient course of a name, counted from C. -/
def gradCourse (s : State) (q name : Nat) : Option Nat :=
  if hasWythe s q && decide (gradFirst s q ≤ name) && decide (name < gradFirst s q + 16 * gradCourses s q)
  then some (codedCourses s q + (name - gradFirst s q) / 16) else none

/-- The course, coded or gradient, of a name. -/
def courseOf (s : State) (q name : Nat) : Option Nat := (codedCourse s q name).orElse (fun _ => gradCourse s q name)

/-- The partition's own state of coded data: the name is in a coded data brick of this block (R388). -/
def isCodedData (s : State) (q name : Nat) : Bool :=
  match codedCourse s q name with
  | some c => isData s q c (ownRank s q)
  | none => false

/-- The tile and the byte offset of a course's header (R238, R262). -/
def headerName (s : State) (q c : Nat) : Nat :=
  if c < codedCourses s q then reg s (K.HEADER_FIRST q) % 2 ^ 48 + c / 64
  else reg s (K.GHEADER_FIRST q) % 2 ^ 48 + (c - codedCourses s q) / 64
def headerOff (s : State) (q c : Nat) : Nat := ownCourse s q c % 64 * 64

/-- A mortar header's fields (R250, R262). -/
structure Header where
  id : Nat
  k : Nat
  m : Nat
  row : Nat
  holder : Nat
  layout : Nat
  course : Nat
  epoch : Nat
  applied : Nat
  stale : Bool
  mapEpoch : Nat
  crcOk : Bool
  deriving DecidableEq, Repr

/-- A header from its 64 bytes. -/
def headerOf (b : List Byte) : Header :=
  let w0 := leAt b 0 8
  { id := w0 % 2 ^ 32, k := bits w0 36 32, m := bits w0 38 37, row := bits w0 40 39, holder := bits w0 45 41, layout := bits w0 63 48,
    course := leAt b 8 8 % 2 ^ 44, epoch := leAt b 16 8 % 2 ^ 48, applied := leAt b 24 4, stale := (leAt b 32 8).testBit 0,
    mapEpoch := leAt b 40 8 % 2 ^ 48, crcOk := decide (leAt b 60 4 = crc32c (bytesAt b 0 60)) }

/-- The 64 bytes of a header. -/
def headerBytes (h : Header) : List Byte :=
  let b := natLe 8 (h.id + h.k * 2 ^ 32 + h.m * 2 ^ 37 + h.row * 2 ^ 39 + h.holder * 2 ^ 41 + h.layout * 2 ^ 48) ++
    natLe 8 h.course ++ natLe 8 h.epoch ++ natLe 8 h.applied ++ natLe 8 (b2n h.stale) ++ natLe 8 h.mapEpoch ++ zeros 12
  b ++ natLe 4 (crc32c b)

/-- A fresh header of the row this block holds in course c. -/
def freshHeader (s : State) (q c row epoch : Nat) : Header :=
  { id := reg s (K.WYTHE_ID q), k := wyK s q, m := wyM s q, row := row, holder := ownRank s q,
    layout := if c < codedCourses s q then 1 else 2, course := ownCourse s q c, epoch := epoch, applied := 0, stale := true,
    mapEpoch := if c < codedCourses s q then 0 else reg s (K.MAP_EPOCH q), crcOk := true }

/-- Whether a header's identity agrees with the map and the bond, STALE and a gradient header's epochs apart (R251). -/
def headerAgrees (s : State) (q c : Nat) (h : Header) : Bool :=
  h.crcOk && decide (h.layout = if c < codedCourses s q then 1 else 2) && decide (h.id = reg s (K.WYTHE_ID q)) &&
  decide (h.k = wyK s q) && decide (h.m = wyM s q) && decide (rowOf s q c (ownRank s q) = some h.row) &&
  decide (h.holder = ownRank s q) && decide (h.course = ownCourse s q c) && decide (h.applied &&& dataMask s q c = h.applied)

/-- A header is usable (R251, R262). -/
def headerUsable (s : State) (q c : Nat) (h : Header) : Bool :=
  headerAgrees s q c h && !h.stale &&
  (decide (c < codedCourses s q) || (decide (h.epoch = reg s (K.EPOCH q)) && decide (h.mapEpoch = reg s (K.MAP_EPOCH q))))

/-- A tile with bytes written over its data from offset `o`: CRC anew, and the marks of wholly replaced lines gone (R326,
R387). -/
def tilePut (t : Tile) (o : Nat) (b : List Byte) : Tile :=
  let data := bytesPut t.data o b
  let whole := (List.range 64).filter (fun j => decide (o ≤ 64 * j ∧ 64 * j + 64 ≤ o + b.length))
  { data := data, info := { t.info with crc := BitVec.ofNat 32 (crc32c data), poison := t.info.poison &&& ~~~(maskOf whole) } }

/-- Ask for the copy of a tile homed in peer memory, once (R324). -/
def awayAsk (s : State) (q n : Nat) (w : Who) : State :=
  match homeOf s q n with
  | .peer win o =>
    if smapHas s.homes.away (q * 2 ^ 48 + n) || s.fabric.reqs.any (fun r => decide (r.use = .away q n)) then s
    else
      match sendLoad s q win o (.away q n) w with
      | (s, .refused) => { s with homes := { s.homes with away := smapPut s.homes.away (q * 2 ^ 48 + n) none } }
      | (s, _) => s
  | _ => s

/-- The mixer and the repointer may work on tiles: those homed in peer memory have been loaded, or cannot be, and there are request tags to store
them again. -/
def awayReady (s : State) (q : Nat) (w : Who) (names : List Nat) : State × Bool :=
  let far := names.filter (fun n => decide (tierOfLoc (homeOf s q n) = 2))
  let s := far.foldl (fun s n => awayAsk s q n w) s
  (s, far.all (fun n => smapHas s.homes.away (q * 2 ^ 48 + n)) && decide (far = [] ∨ s.fabric.reqs.length + far.length ≤ 16384))

/-- The same of a course's brick, and of its header where this block holds the row. -/
def brickReady (s : State) (q c : Nat) (w : Who) : State × Bool :=
  awayReady s q w ((if (rowOf s q c (ownRank s q)).isSome then [headerName s q c] else []) ++ rangeFrom (brickName s q c) 16)

/-- The copies of a course that no store waits for are used up. -/
def brickUsed (s : State) (q c : Nat) : State :=
  let keys := (((if (rowOf s q c (ownRank s q)).isSome then [headerName s q c] else []) ++ rangeFrom (brickName s q c) 16).filter (fun n => decide (tierOfLoc (homeOf s q n) = 2))).map (fun n => q * 2 ^ 48 + n)
  { s with homes := { s.homes with away := s.homes.away.filter (fun e => !keys.contains e.1 || smapHas s.homes.awayOut e.1) } }

/-- Read a tile of this block for the mixer or the repointer, in place or from its copy. -/
def readOwn (s : State) (q n : Nat) (w : Who) (coded : Bool) : State × Got :=
  match homeOf s q n with
  | .peer _ _ =>
    match smapGet s.homes.away (q * 2 ^ 48 + n) with
    | some (some t) =>
      (bump s (K.TIER_READ_BYTES 2) 4096, { tile := t, repair := if coded then (List.range 64).filter (tileBad t) else [], two := [], fail := none })
    | _ => (s, gotFail (tierDetail 4 0 2))
  | l => readLoc s l w coded (identName n)

/-- Write such a tile: in place, or in its copy and by a store to the peer. -/
def writeOwn (s : State) (q n : Nat) (t : Tile) (w : Who) : State × Option Nat :=
  match homeOf s q n with
  | .peer win o =>
    match sendStore s q win o t (.away q n) w with
    | (s, .sent) =>
      let k := q * 2 ^ 48 + n
      let s := bump s (K.TIER_WRITE_BYTES 2) 4096
      ({ s with homes := { s.homes with away := smapPut s.homes.away k (some t), awayOut := smapPut s.homes.awayOut k ((smapGet s.homes.awayOut k).getD 0 + 1) } }, none)
    | (s, _) => (s, some (tierDetail 7 0 2))
  | l => writeLoc s l t w

/-- Read a header: none where its tile cannot be read or its line is poisoned (R251, R266). -/
def readHeader (s : State) (q c : Nat) (w : Who) : State × Option Header :=
  let r := readOwn s q (headerName s q c) w false
  match r.2.fail with
  | some _ => (r.1, none)
  | none =>
    if tileBad r.2.tile (headerOff s q c / 64) then (r.1, none)
    else (r.1, some (headerOf (bytesAt r.2.tile.data (headerOff s q c) 64)))

/-- Write a header in its tile: false where the tile cannot be read or written. -/
def writeHeader (s : State) (q c : Nat) (h : Header) (w : Who) : State × Bool :=
  let r := readOwn s q (headerName s q c) w false
  match r.2.fail with
  | some _ => (r.1, false)
  | none =>
    match writeOwn r.1 q (headerName s q c) (tilePut r.2.tile (headerOff s q c) (headerBytes h)) w with
    | (s, none) => (s, true)
    | (s, some _) => (s, false)

/-- Set STALE in a header that this block holds, or rewrite the map epoch of a complete header of epoch e (R293, R429): one that lies in peer memory is
marked once it has been loaded, before it serves anything else. DEDUCED: log entry 98. -/
def remark (s : State) (q c : Nat) (mark : Option Nat) : State :=
  let w := arrivalWho s q
  let later := fun (s : State) =>
    match homeOf s q (headerName s q c), smapGet s.homes.away (q * 2 ^ 48 + headerName s q c) with
    | .peer _ _, some none => s
    | .peer _ _, _ =>
      let m := (q, c, mark)
      awayAsk { s with mixer := { s.mixer with due := if s.mixer.due.contains m then s.mixer.due else s.mixer.due ++ [m] } } q (headerName s q c) w
    | _, _ => s
  match readHeader s q c w with
  | (s, none) => later s
  | (s, some h) =>
    let put := fun (h : Header) => match writeHeader s q c h w with
      | (s, true) => s
      | (s, false) => later s
    match mark with
    | none => put { h with stale := true }
    | some e => if h.crcOk && decide (h.epoch = e) && !h.stale then put { h with mapEpoch := reg s (K.MAP_EPOCH q) } else brickUsed s q c

/-- Make the marks of a partition that are due. -/
def remarkDue (s : State) (q : Nat) : State :=
  (s.mixer.due.filter (fun m => decide (m.1 = q))).foldl (fun s m => remark s q m.2.1 m.2.2)
    { s with mixer := { s.mixer with due := s.mixer.due.filter (fun m => decide (m.1 ≠ q)) } }

/-- Read the tiles `names` of this block for the mixer or the repointer; none where one cannot be read. Tiles of coded data bricks
come with the lines still to be repaired marked poisoned. -/
def readBrickTiles (s : State) (q : Nat) (w : Who) : List Nat → State × Option (List Tile)
  | [] => (s, some [])
  | n :: t =>
    let r := readOwn s q n w (isCodedData s q n)
    match r.2.fail with
    | some _ => (r.1, none)
    | none =>
      match readBrickTiles r.1 q w t with
      | (s, some ts) => (s, some (r.2.tile :: ts))
      | (s, none) => (s, none)

/-- Write tiles likewise; false where a home cannot take one. -/
def writeBrickTiles (s : State) (q : Nat) (w : Who) : List (Nat × Tile) → State × Bool
  | [] => (s, true)
  | (n, x) :: t =>
    match writeOwn s q n x w with
    | (s, some _) => (s, false)
    | (s, none) => writeBrickTiles s q w t

/-- Some MOVE holds the unit of a name in motion: it has begun to read the unit and its map update is not made (R84). -/
def inMotion (l : List Stream) (q name : Nat) : Bool :=
  l.any (fun y => y.taken && y.finish.isNone && decide (y.d.opcode = 0x12 ∧ y.d.part = q ∧ y.mark ≠ 0 ∧ y.d.src + y.pos ≤ name ∧
    (name = y.d.src + y.pos ∨ (y.mark % 32 = 16 ∧ name < y.d.src + y.pos + 16))))

/-- A write of course c's brick, and of its header where this block holds the row, is held by a move (R84). -/
def brickMoving (s : State) (q c : Nat) : Bool :=
  let names := (if (rowOf s q c (ownRank s q)).isSome then [headerName s q c] else []) ++ rangeFrom (brickName s q c) 16
  names.any (inMotion s.tracker.streams q)

/-- Whether every tile of a brick is homed in this block's own tiers. -/
def brickLocal (s : State) (q first : Nat) : Bool :=
  (rangeFrom first 16).all (fun n => decide (tierOfLoc (homeOf s q n) ≤ 1))

/-- A brick's tiles from 16 tiles' data, in a format. -/
def brickTiles (format : Nat) (ds : List (List Byte)) : List Tile := ds.map (fun d => mkTile d format (elemCount format) 0)

/-- Words of a wythe packet: identifier, sender rank and more in W4 (R320). -/
def wyWord (s : State) (q r kind code : Nat) : Word64 :=
  BitVec.ofNat 64 (reg s (K.WYTHE_ID q) + r * 2 ^ 32 + kind * 2 ^ 37 + code * 2 ^ 40)

/-- Abandon the mortar samples that satisfy `p` without a verdict (R405). -/
def dropSamples (s : State) (p : Verify → Bool) : State := { s with safety := { s.safety with verify := s.safety.verify.filter (fun v => !p v) } }

/-- A brick of course c is rebuilt or restored: a sample of it is abandoned (R405). -/
def dropSample (s : State) (q c : Nat) : State := dropSamples s (fun v => decide (v.part = q ∧ v.course = c))

/-- WYTHE_BREACH is raised once for a course (R312). -/
def breach (s : State) (q c : Nat) : State :=
  if s.members.breached.contains (q, c) then s
  else
    let s := { s with members := { s.members with breached := (q, c) :: s.members.breached } }
    raise (lifeBump (bump s K.RPT_BREACH_COURSES 1) (ltKey 16) 1) 0x0A stRPT 0 (some q) false (c % 2 ^ 32)

/-- A course holds a split unit: it stays breached (R311, R312). DEDUCED: log entry 48. -/
def splitCourse (s : State) (q c : Nat) : State :=
  let s := breach s q c
  { s with members := { s.members with splits := if s.members.splits.contains (q, c) then s.members.splits else (q, c) :: s.members.splits } }

end Sys2Proof.Machine
end

