-- ==== Sys2Proof/Machine/Retain.lean ====
section
/-! DEFINITION. The delta retention buffer (R221, R222, R248): its lines in the yard, and the packed bricks it holds. -/
namespace Sys2Proof.Machine

/-- Byte address of a line of the retention region (R71). -/
def retAddr (s : State) (n : Nat) : Nat := yardAddr (retBase s) 0 + 64 * n

/-- Lines of the region, and those in use. -/
def retSize (s : State) : Nat := reg s K.SST_RETENTION_TILES * 64
def retUsed (s : State) : List Nat := s.mixer.kept.flatMap Kept.lines

/-- Footprint of a packed brick in lines (R248). -/
def retLines (b : List Byte) : Nat := ceilDiv b.length 64

/-- The `n` lowest lines that are free, from line `lo`. -/
def retFree (size : Nat) (used : List Nat) : Nat → Nat → List Nat
  | 0, _ => []
  | n + 1, lo =>
    let k := firstFree used (used.length + 1) lo
    if k < size then k :: retFree size used n (k + 1) else []

/-- Whether `n` further lines fit: a brick larger than the whole buffer waits until the buffer is empty. -/
def retRoom (s : State) (n : Nat) : Bool := decide ((retUsed s).length + n ≤ retSize s)

/-- Place a packed brick's bytes in free lines (R221): the lines it took. -/
def retPlace (s : State) (b : List Byte) (w : Who) : State × List Nat :=
  let ls := retFree (retSize s) (retUsed s) (retLines b) 0
  let s := bump (charge s w.part w.cls 0 (64 * ls.length)) (K.TIER_WRITE_BYTES 0) (64 * ls.length)
  let put := fun (s : State) i => match ls[i]? with | some n => writeYardLine s (retAddr s n) (carried (bytesAt b (64 * i) 64) false) | none => s
  ((List.range ls.length).foldl put s, ls)

/-- The bytes of a retained brick as they stand, without the effects of a read. -/
def retPeek (s : State) (k : Kept) : List Byte := ((k.lines.map (fun n => (peekLine s.mem (retAddr s n)).bytes)).flatten).take k.len

/-- Read a retained brick's lines: its bytes, or none where a line is poisoned (R389). -/
def retRead (s : State) (k : Kept) : State × Option (List Byte) :=
  let r := k.lines.foldl (fun (acc : State × List Byte × Bool) n =>
    let g := readLine acc.1 (retAddr acc.1 n) false
    (g.1, acc.2.1 ++ g.2.bytes, acc.2.2 || g.2.poison)) (s, [], false)
  if r.2.2 then (r.1, none) else (r.1, some (r.2.1.take k.len))

/-- Whether two entries are the same packed brick. -/
def sameKept (a b : Kept) : Bool := decide (a.part = b.part ∧ a.kind = b.kind ∧ a.course = b.course ∧ a.epoch = b.epoch)

/-- Replace an entry. -/
def putKept (s : State) (k : Kept) : State :=
  { s with mixer := { s.mixer with kept := s.mixer.kept.map (fun y => if sameKept y k then k else y) } }

/-- Free an entry and its lines. -/
def dropKept (s : State) (k : Kept) : State :=
  { s with mixer := { s.mixer with kept := s.mixer.kept.filter (fun y => !sameKept y k) } }

/-- The entry of a brick. -/
def findKept (s : State) (q kind c epoch : Nat) : Option Kept :=
  s.mixer.kept.find? (fun k => decide (k.part = q ∧ k.kind = kind ∧ k.course = c ∧ k.epoch = epoch))

end Sys2Proof.Machine
end

