-- ==== Sys2Proof/Machine/Repair.lean ====
section
/-! DEFINITION. Decoding lost bricks and lines from a course's peers (R297-R300, R308, R505): the plan of a decode, the repair
tree, this block's contributions, and what becomes of a decoded brick. -/
namespace Sys2Proof.Machine

/-- This block's own brick of course c is a spare's brick that nothing has rebuilt (R302). -/
def unbuilt (s : State) (q c : Nat) : Bool :=
  decide (rankState s q (ownRank s q) = 2) && isData s q c (ownRank s q) && !s.members.rebuilt.contains (q, c) &&
    !(decide (codedCourses s q ≤ c) && s.members.rebuilt.contains (q, 2 ^ 48))

/-- A data rank's brick is lost: LOST, or SPARE and not yet rebuilt (R297). A block knows of its own rebuilt bricks only, and the
contributors of a decode must agree on its plan: a plan takes the bricks of spares as rebuilt, or without `trust` as lost, and the answer of
a spare that has not rebuilt its brick is poisoned. -/
def brickLost (s : State) (q r : Nat) (trust : Bool) : Bool :=
  decide (rankState s q r = 1) || (decide (rankState s q r = 2) && !trust)

/-- A decode's plan: ranks to be solved for, rows chosen, contributors in tree order, the other choices of rows. -/
structure Plan where
  solved : List Nat
  rows : List Nat
  tree : List Nat
  others : List (List Nat)
  deriving DecidableEq, Repr

/-- The sublists of n members, in lexicographic order. -/
def choose : Nat → List Nat → List (List Nat)
  | 0, _ => [[]]
  | _ + 1, [] => []
  | n + 1, x :: t => (choose n t).map (x :: ·) ++ choose (n + 1) t

/-- What a decode can be: made, breached (R312), or waiting for an EXCUSED rank (R505). -/
inductive Planned where
  | made (p : Plan)
  | breached
  | waits
  deriving DecidableEq, Repr

/-- A list turned to start at position n. -/
def rotate (n : Nat) (l : List Nat) : List Nat := l.drop n ++ l.take n

/-- Plan the decode of rank `lost`'s brick of course c, data or mortar, from its usable rows, taken in the order of `prefs`, or in ascending
order where none is given (R297, R299, R305, R505): the course's lost and absent data bricks are solved for, with that of `extra`, and a
mortar brick is recomputed from them all by R240. -/
def planDecode (s : State) (q c lost : Nat) (prefs : List Nat) (trust : Bool) (extra : Option Nat) : Planned :=
  let gone := (dataRanks s q c).filter (fun r => decide (r = lost ∨ some r = extra) || brickLost s q r trust)
  let away := (dataRanks s q c).filter (fun r => !gone.contains r && decide (rankState s q r = 3))
  let rows := (liveRows s q c).filter (fun j => decide (holderOf s q c j ≠ lost))
  let usable := rows.filter (fun j => decide (rankState s q (holderOf s q c j) ≠ 3))
  if rows.length < gone.length then .breached
  else if usable.length < gone.length + away.length then .waits
  else
    let order := if prefs = [] then usable else prefs.filter usable.contains ++ usable.filter (fun j => !prefs.contains j)
    let need := gone.length + away.length
    let first := order.take need
    let forced := prefs.filter usable.contains
    let choices := choose need (if prefs = [] then usable else if need ≤ forced.length then forced else order)
    let chosen := usable.filter first.contains
    let solved := (dataRanks s q c).filter (fun r => gone.contains r || away.contains r)
    let contributors := (List.range (wyN s q)).filter (fun r =>
      chosen.any (fun j => decide (holderOf s q c j = r)) || (isData s q c r && !solved.contains r))
    .made { solved := solved, rows := chosen, tree := rotate (ownCourse s q c % max 1 contributors.length) contributors, others := choices.drop 1 }

/-- The plan of a decode. A course that holds a split unit is breached (R311, R312). DEDUCED: log entry 46. -/
def planFor (s : State) (q c lost : Nat) (prefs : List Nat) (trust : Bool) (extra : Option Nat) : Planned :=
  if s.members.splits.contains (q, c) then .breached else planDecode s q c lost prefs trust extra

/-- The choices of rows, of trust in spares and of a further lost rank that a decode may go on to when a contribution is poisoned (R297): first
the other rows, then the bricks of spares taken as lost, then one survivor at a time taken as lost. -/
def furtherChoices (s : State) (q c lost : Nat) (prefs : List Nat) (trust : Bool) : List (List Nat × Bool × Option Nat) :=
  let rowsOf := fun (t : Bool) (x : Option Nat) => match planFor s q c lost prefs t x with | .made p => p.rows :: p.others | _ => []
  let trusts := if trust then [true, false] else [false]
  let all := trusts.flatMap (fun t => (rowsOf t none).map (fun rs => (rs, t, (none : Option Nat)))) ++
    trusts.flatMap (fun t => ((dataRanks s q c).filter (fun r => decide (r ≠ lost) && !brickLost s q r t && decide (rankState s q r ≠ 3))).flatMap (fun r =>
      (rowsOf t (some r)).map (fun rs => (rs, t, some r))))
  all.drop 1

/-- x_a^n (R297). -/
def xPow (a n : Nat) : Nat := gfPow (a * n)

/-- w(a, j) of R297: the weight of row j for data index a among the solved indices. -/
def weight (rows others : List Nat) (a j : Nat) : Nat :=
  let x := xPow a 1
  match rows, others with
  | [_], _ => gfInv (xPow a j)
  | [j1, j2], b :: _ =>
    let y := xPow b 1
    if j1 = 0 ∧ j2 = 1 then gfDiv (if j = 0 then y else 1) (x ^^^ y)
    else if j1 = 0 ∧ j2 = 2 then gfDiv (if j = 0 then gfMul y y else 1) (gfMul x x ^^^ gfMul y y)
    else gfDiv (if j = 1 then y else 1) (gfMul x (x ^^^ y))
  | _, b :: d :: _ =>
    let y := xPow b 1
    let z := xPow d 1
    gfDiv (if j = 0 then gfMul y z else if j = 1 then y ^^^ z else 1) (gfMul (x ^^^ y) (x ^^^ z))
  | _, _ => 0

/-- The coefficient of contributor x in the decode of a data index `a` of the solved ones (R297). -/
def dataCoef (s : State) (q c : Nat) (p : Plan) (lost x : Nat) : Nat :=
  let a := dataIndex s q c lost
  let others := (p.solved.filter (fun r => decide (r ≠ lost))).map (dataIndex s q c)
  match p.rows.find? (fun j => decide (holderOf s q c j = x)) with
  | some j => weight p.rows others a j
  | none => p.rows.foldl (fun acc j => acc ^^^ gfMul (weight p.rows others a j) (genCoef j (dataIndex s q c x))) 0

/-- The coefficient of contributor x (R297): of a mortar brick, its own by R240 and its part in each solved brick's. -/
def coefOf (s : State) (q c lost : Nat) (p : Plan) (x : Nat) : Nat :=
  match rowOf s q c lost with
  | some j => p.solved.foldl (fun acc r => acc ^^^ gfMul (genCoef j (dataIndex s q c r)) (dataCoef s q c p r x))
      (if isData s q c x then genCoef j (dataIndex s q c x) else 0)
  | none => dataCoef s q c p lost x

/-- The set lines of a mask, of each of 16 tiles, as one byte string. -/
def maskedBytes (mask : Nat) (tiles : List (List Byte)) : List Byte :=
  (tiles.map (fun d => ((List.range 64).filter (fun j => mask.testBit j)).flatMap (fun j => bytesAt d (64 * j) 64))).flatten

/-- All 64 lines. -/
def fullMask : Nat := 2 ^ 64 - 1

/-- Number of lines a mask selects in a brick. -/
def maskLines (mask : Nat) : Nat := 16 * popCount 64 mask

/-- Where line j of tile t lies in a masked byte string. -/
def maskedOff (mask t j : Nat) : Nat := 64 * (t * popCount 64 mask + popCount j (mask % 2 ^ j))

/-- Lowest set bit of a position, 128 for position 0. -/
def lowBit (p : Nat) : Nat := if p = 0 then 128 else (List.range 7).foldl (fun acc i => if acc = 0 ∧ p.testBit i then 2 ^ i else acc) 0

/-- Positions whose sums position p awaits: its right children in the tree of R105. -/
def childPositions (p n : Nat) : List Nat :=
  ((List.range 7).filter (fun i => decide (2 ^ i < lowBit p) && decide (p + 2 ^ i < n))).map (fun i => p + 2 ^ i)

/-- Repair payload in bytes per microsecond at 100 percent (R300): 2.2 TB/s times the speed factor, and never above the FP port's rate. -/
def repairPeak (s : State) : Nat := min (2200000 * (speedNow s).1 / (speedNow s).2) (resourcePeak s 17)

/-- Charge repair payload to the block's bucket (R300): 4 MiB, filled at RPT_RATE_PCT percent of the repointer's rate. -/
def chargeRepair (s : State) (n : Nat) : State :=
  let have' := (smapGet s.tokens (bucketKey 2 0 0)).getD (4 * 2 ^ 20)
  if n ≤ have' then { s with tokens := smapPut s.tokens (bucketKey 2 0 0) (have' - n) }
  else
    let hold := ceilDiv ((n - have') * 100000) (max 1 (repairPeak s * reg s K.RPT_RATE_PCT))
    bump { s with tokens := smapPut s.tokens (bucketKey 2 0 0) 0 } K.RPT_RATE_HOLD_NS hold

/-- Words 4 and 5 of a repair packet (R320); a request's word 4 carries besides the eight lowest bits of the mask, whose place in word 6 its
coefficient takes. DESIGN CHOICE: log entry 44. -/
def repairW4 (s : State) (q lost : Nat) : Word64 := wyWord s q (ownRank s q) 0 0 ||| BitVec.ofNat 64 (lost * 2 ^ 37)
def repairW5 (c pos : Nat) : Word64 := BitVec.ofNat 64 (c % 2 ^ 44 + pos * 2 ^ 44)

/-- What a request adds to word 5 where the plan is not the one in ascending row order: its rows in bits 53 to 51, in bit 54 that
spares' bricks are taken as rebuilt, and in bits 60 to 55 a further rank taken as lost, plus one. DESIGN CHOICE: log entry 45. -/
def planBits (prefs : List Nat) (p : Plan) (trust : Bool) (extra : Option Nat) : Nat :=
  (if prefs = [] then 0 else p.rows.foldl (fun a j => a + 2 ^ j) 0 * 2 ^ 51) + (if trust then 2 ^ 54 else 0) +
    (match extra with | some r => (r + 1) * 2 ^ 55 | none => 0)

/-- The decode of a lost brick: one whose result is written, or one whose result is held (R305, R389). -/
def findRepair (s : State) (q c lost : Nat) (hold : Bool) : Option Repair :=
  s.repairs.find? (fun r => decide (r.part = q ∧ r.course = c ∧ r.lost = lost ∧ r.hold = hold))

/-- The decode of a brick that is under way: one at a time. -/
def openRepair (s : State) (q c lost : Nat) : Option Repair :=
  s.repairs.find? (fun r => decide (r.part = q ∧ r.course = c ∧ r.lost = lost ∧ r.isDone = false))

def dropRepair (s : State) (q c lost : Nat) (hold : Bool) : State :=
  { s with repairs := s.repairs.filter (fun r => decide (¬ (r.part = q ∧ r.course = c ∧ r.lost = lost ∧ r.hold = hold))) }

def putRepair (s : State) (r : Repair) : State :=
  let s := dropRepair s r.part r.course r.lost r.hold
  { s with repairs := s.repairs ++ [r] }

/-- The delta of this block's brick that no holder of `holders` has acknowledged, as masked bytes (R308). -/
def retainedDelta (s : State) (q c : Nat) (holders : List Nat) (mask : Nat) : Option (List Byte) :=
  match s.mixer.kept.find? (fun k => decide (k.part = q ∧ k.kind = 0 ∧ k.course = c)) with
  | some k => if holders.all k.owed.contains then (unpackBrick (retPeek s k)).map (maskedBytes mask) else none
  | none => none

/-- One tile of this block's brick with decoded lines put in place of those that `fix` names (R308). -/
def patchTile (mask : Nat) (sum : List Byte) (t : Nat) (fix : List Nat) (x : Tile) : Tile :=
  fix.foldl (fun x j => if mask.testBit j then tilePut x (64 * j) (bytesAt sum (maskedOff mask t j) 64) else x) x

/-- Write a decoded brick of this block's own where its lines need it: every line of an unbuilt brick, and otherwise the
lines that a read finds in need of repair (R301, R308): a two-symbol correction that the peers' value confirms stands (R383). False where a home cannot take it. -/
def writeDecoded (s : State) (r : Repair) (w : Who) : State × Bool :=
  let whole := unbuilt s r.part r.course
  let ready := brickReady s r.part r.course w
  if !ready.2 || brickMoving s r.part r.course then (ready.1, false)
  else
  (List.range 16).foldl (fun (acc : State × Bool) t =>
    let s := acc.1
    let name := brickName s r.part r.course + t
    let g := readOwn s r.part name w true
    match g.2.fail with
    | some _ => (g.1, false)
    | none =>
      let fix := if whole then List.range 64 else g.2.repair.filter (fun j => r.mask.testBit j)
      if fix = [] then (g.1, acc.2)
      else
        let x := patchTile r.mask r.sum t fix g.2.tile
        let two := if whole then [] else fix.filter g.2.two.contains
        let stood := two.filter (fun j => decide (bytesAt x.data (64 * j) 64 = bytesAt g.2.tile.data (64 * j) 64))
        let s := bump g.1 K.CORR2_VERIFY_FAIL (two.length - stood.length)
        let s := match homeOf s r.part name with | .yard _ => bump s K.RS_CORR2 stood.length | _ => s
        match writeOwn s r.part name x w with
        | (s, none) => (if whole then s else bump s K.RPT_POISON_REPAIRED (fix.length - stood.length), acc.2)
        | (s, some _) => (bump s K.RPT_POISON_REPAIRED (fix.length - stood.length), false)) (s, true)

/-- This block's own data brick of course c is NEW: it has retired the brick's unit in the epoch (R298). -/
def brickNew (s : State) (q c : Nat) : Bool :=
  let n := brickName s q c
  s.mixer.list.any (fun e => decide (e.part = q ∧ e.isSeal = false ∧ e.first ≤ n ∧ n < e.first + e.names) &&
    (match s.tracker.streams.find? (fun x => decide (x.id = e.sid)) with
     | some x => x.finish.isSome || decide ((n - e.first) * x.d.count < x.pos * e.names)
     | none => true))

/-- The line that follows a contribution's lines: the ranks whose bricks in it are NEW, and the ranks that each of its rows records as
NEW (R298). Sums of contributions are exclusive ors, and so are these masks, since each rank and row adds to a sum once. -/
def infoLine (news : Nat) (row : Option (Nat × Nat)) : List Byte :=
  match row with
  | some (j, a) => natLe 4 news ++ zeros (4 * j) ++ natLe 4 a ++ zeros (56 - 4 * j)
  | none => natLe 4 news ++ zeros 60

/-- The info line at the end of a sum. -/
def infoOf (sum : List Byte) : List Byte := sum.drop (sum.length - 64)
def infoNew (sum : List Byte) : Nat := leAt (infoOf sum) 0 4
def infoRow (sum : List Byte) (j : Nat) : Nat := leAt (infoOf sum) (4 + 4 * j) 4

/-- The ranks that a header records as NEW (R298, R305). -/
def headerNew (s : State) (q : Nat) (h : Header) : Nat := if h.epoch = reg s (K.EPOCH q) then h.applied else 0

/-- What the versions of a decode's contributions come to (R298, R308). -/
inductive Versions where
  | agree
  | old
  | differ
  deriving DecidableEq, Repr

/-- Judge a decode of a coded brick by its info line: every surviving data member's version agrees with every chosen row; where the
brick is this block's own data brick and is not to be rebuilt, the rows record it as it stands, or as OLD while its delta is retained. -/
def versionsOf (s : State) (r : Repair) (p : Plan) (sum : List Byte) : Versions :=
  let q := r.part
  let survivors := p.tree.filter (fun x => isData s q r.course x)
  if codedCourses s q ≤ r.course then .agree
  else if survivors.any (fun x => p.rows.any (fun j => (infoNew sum).testBit x ≠ (infoRow sum j).testBit x)) then .differ
  else if (rowOf s q r.course r.lost).isSome then
    (if p.solved.any (fun x => p.rows.any (fun j => p.rows.any (fun i => (infoRow sum j).testBit x ≠ (infoRow sum i).testBit x))) then .differ else .agree)
  else if r.lost ≠ ownRank s q ∨ r.hold ∨ unbuilt s q r.course then .agree
  else if p.rows.all (fun j => (infoRow sum j).testBit r.lost = brickNew s q r.course) then .agree
  else if brickNew s q r.course && p.rows.all (fun j => !(infoRow sum j).testBit r.lost) then .old
  else .differ

/-- The data members whose bricks a decode's contributions show as NEW: the survivors', and the solved ones' as a row records them (R298). -/
def newMask (p : Plan) (sum : List Byte) : Nat :=
  p.solved.foldl (fun a r => if p.rows.any (fun j => (infoRow sum j).testBit r) then a ||| 2 ^ r else a) (infoNew sum)

/-- Take out of a recomputed mortar brick the deltas that are held for it: the brick, whose data members' bricks are NEW as `news` says, goes
back to what its header records (R267, R298). None where a version differs and no delta is held. -/
def withoutHeld (s : State) (r : Repair) (row : Nat) (h : Header) (news : Nat) (sum : List Byte) : Option (List Byte) :=
  let q := r.part
  (dataRanks s q r.course).foldl (fun acc x =>
    match acc with
    | none => none
    | some sum =>
      if news.testBit x = (headerNew s q h).testBit x then some sum
      else
        match s.mixer.held.find? (fun d => decide (d.part = q ∧ d.course = r.course ∧ d.rank = x ∧ d.epoch = reg s (K.EPOCH q))) with
        | some d =>
          match unpackBrick d.bytes with
          | some ds => if (headerNew s q h).testBit x then none
                       else some (bytesXor sum (gfScale (genCoef row (dataIndex s q r.course x)) (maskedBytes r.mask ds) ++ zeros 64))
          | none => none
        | none => none) (some sum)

/-- Write a recomputed mortar brick of this block: the lines its home holds poisoned, or the whole brick where its header is
unusable, which then records what the data members' versions are (R298, R307, R308). False where it is not written. DEDUCED: log entry 49. -/
def writeMortar (s : State) (r : Repair) (news : Nat) (w : Who) : State × Bool :=
  let h := readHeader (dropSample s r.part r.course) r.part r.course w
  let good := match h.2 with | some x => headerUsable s r.part r.course x | none => false
  let row := (rowOf s r.part r.course (ownRank s r.part)).getD 0
  let sum := match h.2 with | some x => if good && decide (r.course < codedCourses s r.part) then withoutHeld s r row x news r.sum else some r.sum | none => some r.sum
  if (!good && decide (r.mask ≠ fullMask)) || brickMoving s r.part r.course then (h.1, false)
  else
    match sum with
    | none => (h.1, false)
    | some sum =>
    let mem := h.1.mem
    let out := (List.range 16).foldl (fun (acc : State × Bool) t =>
      let name := brickName s r.part r.course + t
      let g := readOwn acc.1 r.part name w false
      match g.2.fail with
      | some _ => (g.1, false)
      | none =>
        let fix := if good then (List.range 64).filter (fun j => tileBad g.2.tile j && r.mask.testBit j) else List.range 64
        if fix = [] then (g.1, acc.2)
        else
          match writeOwn g.1 r.part name (patchTile r.mask sum t fix g.2.tile) w with
          | (s, none) => (s, acc.2)
          | (s, some _) => (s, false)) (h.1, true)
    if good then out
    else if !out.2 then ({ out.1 with mem := mem }, false)
    else
      let e := reg s (K.EPOCH r.part)
      let x := freshHeader s r.part r.course row (if news = 0 then (e + 2 ^ 48 - 1) % 2 ^ 48 else e)
      match writeHeader out.1 r.part r.course { x with applied := if news = 0 then dataMask s r.part r.course else news, stale := false } w with
      | (s, true) => (lifeBump (bump s K.RPT_BRICKS_REBUILT 1) (ltKey 10) 1, true)
      | (s, false) => ({ s with mem := mem }, false)

/-- Count a rebuilt brick (R301, R316, R465). -/
def countRebuilt (s : State) (q c : Nat) : State :=
  if s.members.rebuilt.contains (q, c) then s
  else
    let s := { s with members := { s.members with rebuilt := (q, c) :: s.members.rebuilt } }
    let s := setReg s (K.RB_BRICKS_LEFT q) (reg s (K.RB_BRICKS_LEFT q) - 1)
    lifeBump (bump s K.RPT_BRICKS_REBUILT 1) (ltKey 10) 1

/-- The line of each tile that line number i of a masked byte string is. -/
def maskedLine (mask i : Nat) : Nat :=
  let l := (List.range 64).filter mask.testBit
  (l[i % max 1 l.length]?).getD 0

/-- A decode goes on to another choice. -/
def chooseNext (s : State) (r : Repair) (e : List Nat × Bool × Option Nat) (left : List (List Nat × Bool × Option Nat)) : State :=
  putRepair s { r with rows := e.1, trust := e.2.1, extra := e.2.2, left := left, again := true }

/-- A decode's lines are made: they are written where they belong, or held for the one that asked (R301, R308). -/
def repairMade (s : State) (r : Repair) (news : Nat) (sum : List Byte) : State :=
  let r := { r with isDone := true, sum := sum }
  if r.hold then putRepair s r
  else if r.lost = ownRank s r.part ∧ isData s r.part r.course r.lost then
    let whole := unbuilt s r.part r.course
    match writeDecoded (putRepair s r) r (arrivalWho s r.part) with
    | (s, true) =>
      let s := brickUsed (dropRepair s r.part r.course r.lost false) r.part r.course
      if whole then countRebuilt s r.part r.course else s
    | (s, false) => s
  else if r.lost = ownRank s r.part then
    let w := writeMortar (dropRepair s r.part r.course r.lost false) r news (arrivalWho s r.part)
    if w.2 then w.1 else putRepair w.1 { r with isDone := false, stale := true }
  else putRepair s r

/-- The root sum of a decode has reached this block, with the numbers of its poisoned lines (R299, R302, R308). Where a line is
poisoned, a contributor has lost it too (R297): the decode is made again with the next choice, and the course is breached when there is none
(R312). Where the rows chosen do not record this block's own brick as it stands, other rows are asked first, and then its retained delta serves (R308). -/
def repairArrived (s : State) (r : Repair) (sum : List Byte) (bad : List Nat) : State :=
  if bad ≠ [] then
    match r.left with
    | e :: rest => chooseNext s r e rest
    | [] =>
      if r.lost = ownRank s r.part ∧ !isData s r.part r.course r.lost then dropRepair s r.part r.course r.lost r.hold
      else breach (putRepair s { r with isDone := true, failed := true }) r.part r.course
  else
    let retry := fun (s : State) => putRepair (bump s K.RPT_VERSION_RETRIES 1) { r with stale := true }
    let other := r.left.dropWhile (fun e => decide (e.2 ≠ (r.trust, r.extra)))
    match planFor s r.part r.course r.lost r.rows r.trust r.extra with
    | .made p =>
      match versionsOf s r p sum with
      | .agree => repairMade s r (newMask p sum) sum
      | .old =>
        match other with
        | e :: rest => chooseNext s r e rest
        | [] =>
          match retainedDelta s r.part r.course (p.rows.map (holderOf s r.part r.course)) r.mask with
          | some d => repairMade s r (newMask p sum) (bytesXor sum (d ++ zeros 64))
          | none => retry s
      | .differ =>
        match (if r.lost = ownRank s r.part ∧ isData s r.part r.course r.lost then other else []) with
        | e :: rest => chooseNext s r e rest
        | [] => retry s
    | _ => retry s

/-- Ask the other contributors of a decode for their parts (R299). -/
def askOthers (s : State) (r : Repair) (p : Plan) : State :=
  let q := r.part
  let extra := planBits r.rows p r.trust r.extra
  (List.range p.tree.length).foldl (fun s i =>
    match p.tree[i]? with
    | some x =>
      if x = ownRank s q then s
      else sendRank s q x { pkt0 with type := 0x18, w4 := repairW4 s q r.lost ||| BitVec.ofNat 64 (r.mask % 256 * 2 ^ 42),
                                      w5 := repairW5 r.course i ||| BitVec.ofNat 64 extra,
                                      w6 := BitVec.ofNat 64 (r.mask / 256 * 256 + coefOf s q r.course r.lost p x) } [] (arrivalWho s q)
    | none => s) s

/-- The bricks of a course's spares may be rebuilt, as far as this block knows. -/
def spareHopes (s : State) (q c lost : Nat) : Bool :=
  (dataRanks s q c).any (fun r => decide (r ≠ lost ∧ rankState s q r = 2) && !(decide (r = ownRank s q) && unbuilt s q c))

/-- A decode that begins. -/
def newRepair (s : State) (q c lost mask : Nat) (degraded : Bool) (rows : List Nat) (hold : Bool) : Repair :=
  { part := q, course := c, lost := lost, mask := mask, prefs := rows, rows := rows, trust := spareHopes s q c lost, extra := none,
    left := furtherChoices s q c lost rows (spareHopes s q c lost), hold := hold, isDone := false, again := false,
    failed := false, stale := false, sum := [], degraded := degraded }

/-- Plan a decode as it now stands. -/
def planRepair (s : State) (r : Repair) : Planned := planFor s r.part r.course r.lost r.rows r.trust r.extra

/-- Lines of this block's own brick cannot be read for a contribution: they are repaired as for any reader (R308), while the contribution
goes as it is. DEDUCED: log entry 47. -/
def repairOwn (s : State) (q c mask : Nat) : State :=
  let me := ownRank s q
  if codedCourses s q ≤ c ∨ (openRepair s q c me).isSome ∨ (findRepair s q c me false).isSome then s
  else
    let r := newRepair s q c me mask false [] false
    match planRepair s r with
    | .made p => askOthers (putRepair s r) r p
    | .breached => breach s q c
    | .waits => s

/-- This block's own product for a contribution, and the numbers of its poisoned lines: none while a copy of its brick is awaited. A
brick that is unbuilt, has an unusable header or cannot be read is poisoned whole (R251, R297). -/
def ownProduct (s : State) (q c mask coef : Nat) : State × Option (List Byte × List Nat) :=
  let w := arrivalWho s q
  let n := maskLines mask
  match brickReady s q c w with
  | (s, false) => (s, none)
  | (s, true) =>
  let usable := match rowOf s q c (ownRank s q) with
    | none => (s, true, none)
    | some j =>
      match readHeader s q c w with
      | (s, some h) => if headerUsable s q c h then (s, true, some (j, headerNew s q h)) else (bump s K.MIX_HEADER_BAD 1, false, none)
      | (s, none) => (bump s K.MIX_HEADER_BAD 1, false, none)
  let info := infoLine (if usable.2.2.isNone && brickNew s q c then 2 ^ ownRank s q else 0) usable.2.2
  let none' := zeros (64 * n) ++ info
  if unbuilt s q c then (s, some (none', List.range n))
  else if !usable.2.1 then (brickUsed (repairOwn usable.1 q c fullMask) q c, some (none', List.range n))
  else
    match readBrickTiles usable.1 q w (rangeFrom (brickName s q c) 16) with
    | (s, none) => (brickUsed s q c, some (none', List.range n))
    | (s, some ts) =>
      let s := brickUsed s q c
      let b := maskedBytes mask (ts.map Tile.data)
      let r := if reg s K.RPT_MODE = 2 then hostWork s w (ts.map Tile.data ++ [natLe 1 coef]) b.length else (s, gfScale coef b)
      let per := popCount 64 mask
      let bad := (List.range n).filter (fun i => match ts[i / max 1 per]? with | some t => tileBad t (maskedLine mask i) | none => false)
      let all := ts.foldl (fun a (t : Tile) => a ||| t.info.poison.toNat) 0
      (if all = 0 then r.1 else repairOwn r.1 q c all, some (r.2 ++ info, bad))

/-- Put a contribution in the list in place of the one for the same brick. -/
def putContrib (s : State) (c : Contrib) : State :=
  { s with contribs := s.contribs.filter (fun d => decide (¬ (d.part = c.part ∧ d.course = c.course ∧ d.lost = c.lost))) ++ [c] }

def dropContrib (s : State) (q c lost : Nat) : State :=
  { s with contribs := s.contribs.filter (fun d => decide (¬ (d.part = q ∧ d.course = c ∧ d.lost = lost))) }

/-- Lines to be sent, those numbered in `bad` poisoned. -/
def markedLines (b : List Byte) (bad : List Nat) : List Line :=
  let ls := asLines b
  (List.range ls.length).filterMap (fun i => match ls[i]? with | some l => some (if bad.contains i then carried l.bytes true else l) | none => none)

/-- A decode of a brick that no block holds is regulated; the repair of poisoned lines is not (R300). -/
def regulatedRepair (s : State) (d : Contrib) : Bool :=
  decide (d.mask = fullMask ∧ (rankState s d.part d.lost = 1 ∨ rankState s d.part d.lost = 2))

/-- Send on a contribution that waits for nothing more (R299), or hand its sum to this block's own decode. -/
def flushContrib (s : State) (d : Contrib) : State :=
  if !d.own || d.owed ≠ [] then putContrib s d
  else
    let s := dropContrib s d.part d.course d.lost
    if d.parent = ownRank s d.part then
      match openRepair s d.part d.course d.lost with
      | some r => repairArrived s r d.sum d.bad
      | none => s
    else
      let s := bump (if regulatedRepair s d then chargeRepair s (d.sum.length - 64) else s) K.RPT_REPAIR_BYTES (d.sum.length - 64)
      sendRank s d.part d.parent { pkt0 with type := 0x17, w4 := repairW4 s d.part d.lost, w5 := repairW5 d.course d.pos, w6 := BitVec.ofNat 64 d.mask }
        (markedLines d.sum d.bad) (arrivalWho s d.part)

/-- Form this block's own product for a contribution that has been asked of it, unless a copy of its brick is awaited. -/
def addOwn (s : State) (d : Contrib) : State :=
  match ownProduct s d.part d.course d.mask d.coef with
  | (s, some (x, bad)) => flushContrib s { d with sum := bytesXor d.sum x, bad := bad ++ d.bad, own := true }
  | (s, none) => putContrib s d

/-- Take up this block's place in a repair tree (R299). -/
def contribute (s : State) (q c lost mask pos coef requester : Nat) (prefs : List Nat) (trust : Bool) (extra : Option Nat) : State :=
  match planDecode s q c lost prefs trust extra with
  | .made p =>
    if p.tree[pos]? ≠ some (ownRank s q) then s
    else
      let early := s.contribs.find? (fun d => decide (d.part = q ∧ d.course = c ∧ d.lost = lost ∧ d.mask = mask ∧ d.own = false ∧ d.asked = false))
      let kids := childPositions pos p.tree.length
      let parent := if pos = 0 then requester else (p.tree[pos - lowBit pos]?).getD requester
      let d : Contrib := { part := q, course := c, lost := lost, mask := mask, pos := pos, parent := parent, owed := kids, sum := zeros (64 * (maskLines mask + 1)),
                           bad := [], coef := coef, asked := true, own := false }
      addOwn s (match early with
        | some e => { d with owed := kids.filter (fun k => !e.owed.contains k), sum := e.sum, bad := e.bad }
        | none => d)
  | _ => s

/-- Ask every contributor of a decode for its part (R299). -/
def askContributors (s : State) (r : Repair) (p : Plan) : State :=
  let q := r.part
  let s := askOthers s r p
  match (List.range p.tree.length).find? (fun i => decide (p.tree[i]? = some (ownRank s q))) with
  | some i => contribute s q r.course r.lost r.mask i (coefOf s q r.course r.lost p (ownRank s q)) (ownRank s q) r.rows r.trust r.extra
  | none => s

/-- Begin the decodes again that go on to another choice. -/
def againRepairs : Nat → State → State
  | 0, s => s
  | fuel + 1, s =>
    match s.repairs.find? (fun r => r.again) with
    | none => s
    | some r =>
      let r := { r with again := false }
      let s := putRepair s r
      againRepairs fuel (match planRepair s r with
        | .made p => askContributors s r p
        | _ => s)

/-- Form the products that waited for copies of this block's own brick. -/
def lateProducts (s : State) (q : Nat) : State :=
  (s.contribs.filter (fun d => decide (d.part = q) && d.asked && !d.own)).foldl addOwn s

/-- What starting a decode comes to. -/
inductive Started where
  | waiting
  | breached
  | done (r : Repair)
  deriving DecidableEq, Repr

/-- A decode as its asker finds it. -/
def startedAs (s : State) (q c lost : Nat) (hold : Bool) : State × Started :=
  match findRepair s q c lost hold with
  | some r => if r.failed then (dropRepair s q c lost hold, .breached) else if r.isDone then (s, .done r) else (s, .waiting)
  | none => (s, .waiting)

/-- The choices a decode may be put through before it ends. -/
def repairFuel : Nat := 128

/-- Have the lines of `mask` of rank `lost`'s brick decoded: begin the decode, or find it in progress or done. A choice that can be made from
the members present is taken before one that waits (R505). -/
def startRepairBy (s : State) (q c lost mask : Nat) (degraded : Bool) (rows : List Nat) (hold : Bool) : State × Started :=
  if (findRepair s q c lost hold).isSome ∨ (openRepair s q c lost).isSome then startedAs s q c lost hold
  else
    let r := newRepair s q c lost mask degraded rows hold
    match planRepair s r with
    | .breached => (breach s q c, .breached)
    | .waits => (putRepair s { r with degraded := true, stale := true }, .waiting)
    | .made p => startedAs (againRepairs repairFuel (askContributors (putRepair s r) r p)) q c lost hold

/-- The same from the usable rows in ascending order, the result written where it belongs. -/
def startRepair (s : State) (q c lost mask : Nat) (degraded : Bool) : State × Started := startRepairBy s q c lost mask degraded [] false

end Sys2Proof.Machine
end

