-- ==== Sys2Proof/Machine/Tracker.lean ====
section
/-! DEFINITION. The stream tracker: streams, their ends and their completion records (R47-R62), and the reads and writes that a
stream makes by tile name (R45, R84, R90, R302, R308, R324). -/
namespace Sys2Proof.Machine

/-- The queue's partition and class (R47). -/
def qPart (q : Nat) : Nat := q / 4
def qClass (q : Nat) : Nat := q % 4

/-- A descriptor from its 64 bytes (R41). -/
def descOf (b : List Byte) : Desc :=
  let w := fun i => leAt b (8 * i) 8
  { opcode := w 0 % 256, hops := (List.range 6).map (fun i => bits (w 0) (12 + 5 * i) (8 + 5 * i)), format := bits (w 0) 41 38,
    outFormat := bits (w 0) 45 42, cls := bits (w 0) 47 46, part := bits (w 0) 51 48, variance := (w 0).testBit 52,
    transpose := (w 0).testBit 53, fence := (w 0).testBit 54, notify := (w 0).testBit 55, src := w 1 % 2 ^ 48, dst := w 2 % 2 ^ 48,
    aux := w 3 % 2 ^ 48, count := w 4 % 2 ^ 32, arg := bits (w 4) 63 32, deadline := w 5 % 2 ^ 48, scalar := w 6,
    token := w 7 % 2 ^ 32, tensor := bits (w 7) 47 32 }

/-- The route: hops before the first zero (R47). -/
def routeOf (d : Desc) : List Nat := d.hops.takeWhile (fun h => decide (h ≠ 0))

/-- The agent of a stream's work (R366). -/
def whoOf (x : Stream) : Who := { part := x.d.part, cls := x.d.cls, deadline := x.d.deadline }

/-- A stream in the tracker by its acceptance number. -/
def findStream (s : State) (sid : Nat) : Option Stream := s.tracker.streams.find? (fun x => decide (x.id = sid))

/-- Replace a stream. -/
def putStream (s : State) (x : Stream) : State :=
  { s with tracker := { s.tracker with streams := s.tracker.streams.map (fun y => if y.id = x.id then x else y) } }

/-- Change a stream. -/
def updStream (s : State) (sid : Nat) (f : Stream → Stream) : State :=
  { s with tracker := { s.tracker with streams := s.tracker.streams.map (fun y => if y.id = sid then f y else y) } }

/-- A stream of an opcode that runs: accepted, released, not held, not finished. -/
def running (s : State) (sid opcode : Nat) : Option Stream :=
  match findStream s sid with
  | some x => if x.taken && decide (x.d.opcode = opcode) && !x.fenceWait && decide (x.hold = 0) && x.finish.isNone && !x.closing then some x else none
  | none => none

/-- Run a meaning on a running stream of an opcode; anything else has no effect. DEDUCED: log entry 4. -/
def onStream (s : State) (sid opcode : Nat) (f : State → Stream → State) : State :=
  match running s sid opcode with
  | some x => f s x
  | none => s

/-- Mark a stream finished: its record takes the next place of its queue (R58). -/
def setFinish (s : State) (sid : Nat) : State :=
  let n := s.tracker.nextFinish
  let s := updStream s sid (fun y => if y.finish.isNone then { y with finish := some n, closing := false } else y)
  { s with tracker := { s.tracker with nextFinish := n + 1 } }

/-- End a stream with a status and DETAIL; it waits for its stores' responses first. -/
def endStream (s : State) (sid status detail : Nat) : State :=
  match findStream s sid with
  | some x =>
    let s := putStream s { x with status := status, detail := detail % 2 ^ 32, closing := true }
    if x.unacked = 0 then setFinish s sid else s
  | none => s

/-- Tiles delivered at the last hop (R53). -/
def addDone (s : State) (sid n : Nat) : State := updStream s sid (fun y => { y with tilesDone := y.tilesDone + n })

/-- The POISON flag of the record (R53). -/
def markPoison (s : State) (sid : Nat) (t : Tile) : State :=
  if t.info.poison = 0 then s else updStream s sid (fun y => { y with poison := true })

/-- The streams that occupy the tracker (R56). -/
def inFlight (s : State) : Nat := (s.tracker.streams.filter Stream.taken).length

/-- Of class C0, and of the other classes. -/
def inFlightC0 (s : State) : Nat := (s.tracker.streams.filter (fun x => x.taken && decide (x.d.cls = 0))).length

/-- An entry is free for a class (R56): C0 has its reserve, and shares the rest. -/
def entryFree (s : State) (cls : Nat) : Bool :=
  let others := inFlight s - inFlightC0 s
  if cls = 0 then decide (inFlight s < 262144)
  else decide (others + max (inFlightC0 s) (reg s K.STR_C0_RESERVE) < 262144)

/-- A descriptor's deadline has passed (R42). -/
def deadlinePassed (s : State) (d : Desc) : Bool := decide (2 ^ 47 ≤ (d.deadline + 2 ^ 48 - nowDeadline s) % 2 ^ 48)

/-- The signed key of R365 as a number that orders as it does. -/
def deadlineKey (s : State) (deadline : Nat) : Nat := (deadline + 2 ^ 48 - nowDeadline s + 2 ^ 47) % 2 ^ 48

/-- A free position in a completion ring (R52). -/
def cqFree (s : State) (q : Nat) : Bool :=
  decide ((reg s (K.CQ_PRODUCER q) + 2 ^ 32 - reg s (K.CQ_CONSUMER q)) % 2 ^ 32 < reg s (K.CQ_SIZE q))

/-- The 16 bytes of a completion record (R53). -/
def recordBytes (s : State) (q : Nat) (x : Stream) : List Byte :=
  let idx := reg s (K.CQ_PRODUCER q)
  let phase := (1 + idx / max 1 (reg s (K.CQ_SIZE q))) % 2
  natLe 4 (if x.tokenZero then 0 else x.d.token) ++
  natLe 4 (x.status % 256 + (q % 64) * 256 + b2n x.varied * 2 ^ 14 + b2n x.poison * 2 ^ 15 + phase * 2 ^ 16) ++
  natLe 4 x.tilesDone ++ natLe 4 x.detail

/-- Write one stream's completion record and take it out of the tracker (R52-R54, R369, R379). -/
def recordStream (s : State) (q : Nat) (x : Stream) : State :=
  let idx := reg s (K.CQ_PRODUCER q)
  let s := structWrite s (qPart q) (reg s (K.CQ_BASE q) % 2 ^ 48) (idx % max 1 (reg s (K.CQ_SIZE q)) * 16) (recordBytes s q x)
  let s := setReg s (K.CQ_PRODUCER q) ((idx + 1) % 2 ^ 32)
  let s := if x.d.notify && !x.tokenZero then setRegBit s (K.Q_EVENT q) 0 true else s
  let s := if !x.tokenZero && deadlinePassed s x.d then bump s (K.SCH_LATE x.d.cls) 1 else s
  let s := if x.taken && decide (x.d.cls = 0) then
      let s := if x.status = 0 then bump s K.C0_COMPLETED 1 else s
      setReg s K.C0_MAX_NS (min (2 ^ 32 - 1) (max (reg s K.C0_MAX_NS) (upNs s - x.acceptedNs)))
    else s
  { s with tracker := { s.tracker with streams := s.tracker.streams.filter (fun y => decide (y.id ≠ x.id)) } }

/-- The queue's finished stream that finished first. -/
def firstFinished (s : State) (q : Nat) : Option Stream :=
  (s.tracker.streams.filter (fun x => decide (x.queue = q) && x.finish.isSome)).foldl (fun acc x =>
    match acc with
    | none => some x
    | some y => if (x.finish.getD 0) < (y.finish.getD 0) then some x else some y) none

/-- Write the oldest finished stream's record, where the ring has room (R52). -/
def recordNext (s : State) (q : Nat) : State :=
  match firstFinished s q with
  | some x => if cqFree s q then recordStream s q x else s
  | none => s

/-- Every stream of a partition that satisfies `p` ends with a status, whatever it waits for (R287, R293). -/
def cancelStreams (s : State) (q status detail : Nat) (p : Stream → Bool) : State :=
  let ids := (s.tracker.streams.filter (fun x => decide (x.d.part = q) && x.taken && x.finish.isNone && p x)).map Stream.id
  ids.foldl (fun s i => setFinish (updStream s i (fun y => { y with status := status, detail := detail % 2 ^ 32, hold := 0, fenceWait := false, unacked := 0 })) i) s

/-- What a read by name gives a stream: a tile, a wait, or the status that ends the stream. -/
inductive NameRead where
  | ok (t : Tile)
  | wait
  | fail (status detail : Nat)
  deriving DecidableEq, Repr

/-- Have a coded or gradient brick's lines decoded for a read (R302, R308). -/
def readByRepair (s : State) (q name c mask : Nat) (degraded : Bool) (t : Tile) : State × NameRead :=
  match startRepair s q c (ownRank s q) mask degraded with
  | (s, .waiting) => (s, .wait)
  | (s, .breached) => (s, .fail 0x78 c)
  | (s, .done r) =>
    if mask &&& r.mask = mask then
      let fix := (List.range 64).filter (fun j => mask.testBit j)
      let x := patchTile r.mask r.sum ((name - brickName s q c)) fix t
      (dropRepair s q c (ownRank s q) false, .ok { x with info := { x.info with poison := 0 } })
    else (dropRepair s q c (ownRank s q) false, .wait)

/-- Read a tile at its home in this block (R45, R90, R302, R308). -/
def readLocal (s : State) (q name : Nat) (l : Loc) (w : Who) : State × NameRead :=
  let coded := isCodedData s q name
  let r := readLoc s l w coded (identName name)
  match r.2.fail with
  | some d =>
    match codedCourse s q name with
    | some c => if coded && decide (d % 256 ≤ 3) then readByRepair r.1 q name c fullMask false (zeroTile 0) else (r.1, .fail 0x23 d)
    | none => (r.1, .fail 0x23 d)
  | none =>
    if r.2.repair = [] then (r.1, .ok r.2.tile)
    else
      match codedCourse s q name with
      | some c => readByRepair r.1 q name c (maskOf r.2.repair).toNat false r.2.tile
      | none => (r.1, .ok r.2.tile)

/-- Read a tile homed in peer memory: a load is issued once, and its response fills the stream's store (R324). -/
def readPeer (s : State) (x : Stream) (name win o : Nat) (w : Who) : State × NameRead :=
  match findStream s x.id with
  | none => (s, .wait)
  | some x =>
    match smapGet x.fetched name with
    | some t => (bump (updStream s x.id (fun y => { y with fetched := smapErase y.fetched name })) (K.TIER_READ_BYTES 2) 4096, .ok t)
    | none =>
      if x.asked.contains name then (s, .wait)
      else
        match sendLoad s x.d.part win o (.read x.id name) w with
        | (s, .sent) => (updStream s x.id (fun y => { y with asked := name :: y.asked }), .wait)
        | (s, .noTag) => (s, .wait)
        | (s, .refused) => (s, .fail 0x23 (tierDetail 7 0 2))

/-- Read a built tile at its home, wherever that is: the lines of a coded data brick's tile that a peer gives poisoned are decoded
(R308). -/
def readHome (s : State) (x : Stream) (name : Nat) (l : Loc) (w : Who) : State × NameRead :=
  let q := x.d.part
  match l with
  | .peer win o =>
    if smapHas s.homes.awayOut (q * 2 ^ 48 + name) then (s, .wait)
    else
      match readPeer s x name win o w with
      | (s, .ok t) =>
        if isCodedData s q name && decide (t.info.poison ≠ 0) then
          match readByRepair s q name ((codedCourse s q name).getD 0) t.info.poison.toNat false t with
          | (s, .wait) => (updStream s x.id (fun y => { y with fetched := smapPut y.fetched name t }), .wait)
          | r => r
        else (s, .ok t)
      | r => r
  | l => readLocal s q name l w

/-- Note that a stream waits for a decode (R302, R505): of a brick of a spare, whose tile counts once as a degraded read, or of another that waits
for an EXCUSED rank. -/
def noteDegraded (s : State) (x : Stream) (name : Nat) (unbuilt : Bool) : State :=
  let key := if unbuilt then name else name + 2 ^ 50
  match findStream s x.id with
  | some y =>
    if y.degraded.contains key then s
    else updStream (if unbuilt then bump s K.RPT_DEGRADED_READS 1 else s) x.id (fun y => { y with degraded := key :: y.degraded })
  | none => s

/-- A stream has its tile: it waits for its decode no more. -/
def endDegraded (s : State) (x : Stream) (name : Nat) : State :=
  if x.degraded = [] then s else updStream s x.id (fun y => { y with degraded := y.degraded.filter (fun k => decide (k % 2 ^ 50 ≠ name)) })

/-- Read a tile by name as a HOM hop does (R45, R80, R87, R90). -/
def readName (s : State) (x : Stream) (name : Nat) : State × NameRead :=
  let q := x.d.part
  let w := whoOf x
  if isWbName s q name then
    let r := wbRead s q name w
    match r.2.fail with
    | some d => (r.1, .fail 0x23 d)
    | none => (r.1, .ok r.2.tile)
  else
    match mapFetch s q name with
    | (s, some d) => (s, .fail 0x23 d)
    | (s, none) =>
      match homeOf s q name with
      | .none => (s, .fail 0x22 0)
      | l =>
        match courseOf s q name with
        | some c =>
          if unbuilt s q c then
            match readByRepair (noteDegraded s x name true) q name c fullMask true (zeroTile 0) with
            | (s, .wait) => (s, .wait)
            | (s, r) => (endDegraded s x name, r)
          else
            match readHome s x name l w with
            | (s, .wait) =>
              (match findRepair s q c (ownRank s q) false with
               | some r => if r.degraded then noteDegraded s x name false else s
               | none => s, .wait)
            | (s, r) => (endDegraded s x name, r)
        | none => readHome s x name l w

/-- What a write by name comes to: done, held back for want of a tag, or the status that ends the stream. -/
inductive NameWrite where
  | ok
  | wait
  | fail (status detail : Nat)
  deriving DecidableEq, Repr

/-- Write a whole tile by name as a HOM hop does (R59, R87, R324). -/
def writeName (s : State) (x : Stream) (name : Nat) (t : Tile) : State × NameWrite :=
  let q := x.d.part
  let w := whoOf x
  if isWbName s q name then
    match wbWrite s q name t w with
    | (s, some d) => (s, .fail 0x23 d)
    | (s, none) => (s, .ok)
  else
    match mapFetch s q name with
    | (s, some d) => (s, .fail 0x23 d)
    | (s, none) =>
      if inMotion s.tracker.streams q name then (s, .wait)
      else
      match homeOf s q name with
      | .none => (s, .fail 0x22 0)
      | .peer win o =>
        if relayHolds s q name then (s, .wait)
        else
        match sendStore s q win o t (.write x.id) w with
        | (s, .sent) => (bump (updStream s x.id (fun y => { y with unacked := y.unacked + 1 })) (K.TIER_WRITE_BYTES 2) 4096, .ok)
        | (s, .noTag) => (s, .wait)
        | (s, .refused) => (s, .fail 0x23 (tierDetail 7 0 2))
      | l =>
        match writeLoc s l t w with
        | (s, some d) => (s, .fail 0x23 d)
        | (s, none) => (s, .ok)

/-- Read a list of names, all or none: the tiles, a wait, or the status that ends the stream. -/
inductive ListRead where
  | ok (l : List Tile)
  | wait
  | fail (status detail : Nat)
  deriving DecidableEq, Repr

/-- Every tile that arrived is put back for the next attempt where some other is still awaited. -/
def readNames (s : State) (x : Stream) : List Nat → State × ListRead
  | [] => (s, .ok [])
  | n :: t =>
    match readName s x n with
    | (s, .fail a b) => (s, .fail a b)
    | (s, .wait) =>
      match readNames s x t with
      | (s, .fail a b) => (s, .fail a b)
      | (s, _) => (s, .wait)
    | (s, .ok v) =>
      match readNames s x t with
      | (s, .ok vs) => (s, .ok (v :: vs))
      | (s, .fail a b) => (s, .fail a b)
      | (s, .wait) =>
        match homeOf s x.d.part n with
        | .peer _ _ => (updStream s x.id (fun y => { y with fetched := smapPut y.fetched n v }), .wait)
        | _ => (s, .wait)

/-- Write a list of tiles to a run of names: the first failure ends it. -/
def writeNames (s : State) (x : Stream) : List (Nat × Tile) → State × NameWrite
  | [] => (s, .ok)
  | (n, t) :: rest =>
    match writeName s x n t with
    | (s, .ok) => writeNames s x rest
    | r => r

/-- DETAIL of a failing status: tiles delivered, or the tier's cause or the course (R54, R314). -/
def failDetail (s : State) (sid status detail : Nat) : Nat :=
  if status = 0x23 ∨ status = 0x78 ∨ status = 0x79 then detail else match findStream s sid with | some x => x.tilesDone | none => 0

/-- End a stream with a failing status of R54. -/
def failStream (s : State) (sid status detail : Nat) : State := endStream s sid status (failDetail s sid status detail)

/-- EP tiles delivered to a queue: outbound, in ascending ordinal (R481), POISON as R388 gives. -/
def deliverEp (s : State) (x : Stream) (ordinal : Nat) (t : Tile) : State :=
  let s := charge s x.d.part x.d.cls 18 4096
  let s := { s with epOut := s.epOut ++ [{ queue := x.queue, token := x.d.token, ordinal := ordinal, tile := t, varied := x.varied, sid := x.id, who := whoOf x }] }
  let n := ((List.range 64).filter (tileBad t)).length
  if n = 0 then s
  else raise (bump (markPoison s x.id t) K.POISON_DELIVERED n) 0x16 stEP 0 (some x.d.part) false x.queue

end Sys2Proof.Machine
end

