-- ==== Sys2Proof/Machine/Safe.lean ====
section
/-! DEFINITION. Entry into the safe state (R410, R411), and lane groups out of service (R401, R402, R407). -/
namespace Sys2Proof.Machine

/-- The lane groups out of service, as a bit mask (R412). -/
def lgOut (s : State) : Nat := leNat (strN s K.LG_OUT 20)

/-- Whether a station has no lane group in service. -/
def stationDead (s : State) (st : Nat) : Bool :=
  decide (0 < (laneGroups st).2) && (rangeFrom (laneGroups st).1 (laneGroups st).2).all (fun g => (lgOut s).testBit g)

/-- STR writes no FAIL_SAFETY record when the cause is 1, 4 or 6 or the node is SST, STR or EP (R411). -/
def safRecords (cause node : Nat) : Bool :=
  !([1, 4, 6].contains cause) && !([stSST, stSTR, stEP].contains (node % 32))

/-- Write one FAIL_SAFETY record, where the queue's ring has room (R52, R411). -/
def failRecord (s : State) (x : Stream) : State :=
  let x := { x with status := 0x25, detail := 0 }
  if cqFree s x.queue then recordStream s x.queue x else putStream s { x with finish := some x.id }

/-- A FAIL_SAFETY record for every stream held, in the order of acceptance (R411). -/
def failAllStreams (s : State) : State := (s.tracker.streams.filter Stream.taken).foldl failRecord s

/-- Drive SAFE_FAULT and enter the safe state (R410, R411). `since` is SAF_SUSPECT_SINCE. -/
def safeFaultSince (s : State) (cause node since : Nat) : State :=
  if reg s K.SAFE_STATE = 2 then s
  else
    let s := setRegs s [(K.SAFE_STATE, 2), (K.SAF_CAUSE, cause), (K.SAF_NODE, node), (K.SAF_TIME, stamp s), (K.SAF_SUSPECT_SINCE, since)]
    let s := { s with pins := { s.pins with safeT := true, safeC := false } }
    let s := if cause ≤ 6 then lifeBump s (ltKey 5) 1 else s
    let s := raise s 0x15 (node % 32) (node / 32 % 256) none (node.testBit 15) cause
    if safRecords cause node then failAllStreams s else s

/-- Drive SAFE_FAULT with results suspect from now (every cause but 2). -/
def safeFault (s : State) (cause node : Nat) : State := safeFaultSince s cause node (stamp s)

/-- Take a lane group out of service until the next start-up (R401, R402). `mech`: 1 residue, 2 parity, 3 watchdog,
4 dual-rail. -/
def laneGroupOut (s : State) (g mech : Nat) : State :=
  if (lgOut s).testBit g then s
  else
    let s := setStr s K.LG_OUT (natLe 20 (lgOut s ||| 2 ^ g))
    let s := lifeBump s (ltKey 6) 1
    let s := raise s 0x14 (groupStation g) g none false (g + mech * 256)
    if stationDead s (groupStation g) then safeFault s 5 (nodeWord (groupStation g) g false) else s

/-- The counter of a station's operations that were rerun after a mismatch (R225, R401). -/
def retryKey (st : Nat) : Nat := if st = stTRW then K.TRW_RESIDUE_RETRIES else if st = stMIX ∨ st = stRPT then K.GF_PARITY_RETRIES else K.LANE_RESIDUE_RETRIES

/-- One mismatch that a lane group's check finds: the operation is rerun; where the rerun fails too, the group goes out of service and the
operation runs in another (R225, R401). -/
def laneFault (s : State) (e : Nat × Bool) : State :=
  let st := groupStation e.1
  if (lgOut s).testBit e.1 then s
  else
    let s := bump s (retryKey st) 1
    if !e.2 then s
    else
      let s := if st = stTRW then setReg (bump s K.TRW_RESIDUE_FAILS 1) K.TRW_GROUPS_OUT (reg s K.TRW_GROUPS_OUT + 1) else s
      laneGroupOut s e.1 (if st = stMIX ∨ st = stRPT then 2 else 1)

/-- A station's lanes work: the mismatches that stand for its groups are found, and none leaves a wrong result. DESIGN CHOICE: log entry 100. -/
def laneChecks (s : State) (st : Nat) : State :=
  (s.safety.lanes.filter (fun e => decide (groupStation e.1 = st))).foldl laneFault
    { s with safety := { s.safety with lanes := s.safety.lanes.filter (fun e => decide (groupStation e.1 ≠ st)) } }

end Sys2Proof.Machine
end

