-- ==== Sys2Proof/Machine/Plumb.lean ====
section
/-! DEFINITION. The plumb: digests and the digest log (R127-R133). -/
namespace Sys2Proof.Machine

/-- mix of R127. -/
def mix (name crc : Nat) : Nat :=
  let x := srRound ((name * srC2 % 2 ^ 64) ^^^ crc)
  srRound (x ^^^ name)

/-- Fold one tile into the digest of a partition, kind and tag; `epoch` is that of the work that opens it (R128, R129, R258). -/
def foldTile (s : State) (q epoch kind tag name : Nat) (t : Tile) : State :=
  if reg s K.PLB_MODE ≠ 1 then s
  else
    let bad := decide (t.info.poison ≠ 0)
    let v := mix name (crc64 t.data)
    let match_ := fun (d : Digest) => decide (d.part = q ∧ d.kind = kind ∧ d.tag = tag)
    if s.digests.any match_ then
      let s := bump s K.PLB_TILES 1
      let s := if bad then bump s K.PLB_POISON_FOLDED 1 else s
      { s with digests := updFirst match_ (fun d => { d with sum := (d.sum + v) % 2 ^ 64, tiles := d.tiles + 1, poison := d.poison || bad }) s.digests }
    else if 4096 ≤ s.digests.length then bump s K.PLB_KEY_OVERFLOW 1
    else
      let s := bump s K.PLB_TILES 1
      let s := if bad then bump s K.PLB_POISON_FOLDED 1 else s
      { s with digests := s.digests ++ [{ part := q, kind := kind, tag := tag, sum := v, tiles := 1, poison := bad, epoch := epoch }] }

/-- The copy that host-assisted mode sends at a digest point (R25, R131). -/
def plumbCopy (s : State) (x : Stream) (ordinal : Nat) (t : Tile) : State :=
  if reg s K.PLB_MODE = 2 then
    { s with epOut := s.epOut ++ [{ queue := x.queue, token := x.d.token, ordinal := ordinal, tile := t, varied := x.varied, sid := x.id, who := whoOf x }] }
  else s

/-- The 32 bytes of a digest log entry (R132). -/
def logEntry (s : State) (d : Digest) (abandoned : Bool) : List Byte :=
  natLe 8 d.sum ++
  natLe 8 (d.epoch % 2 ^ 48 + d.part * 2 ^ 48 + d.kind * 2 ^ 52 + b2n d.poison * 2 ^ 56 + b2n abandoned * 2 ^ 57) ++
  natLe 8 (d.tag % 65536 + min d.tiles (2 ^ 32 - 1) * 65536) ++
  natLe 4 (nowNs s % 1000000000) ++ natLe 4 (nowS s)

/-- Log one closed digest (R132, R133); nothing is logged while the plumb is not in hardware mode (R131). -/
def logDigest (s : State) (d : Digest) (abandoned : Bool) : State :=
  if reg s K.PLB_MODE ≠ 1 ∨ reg s K.LOG_STATE ≠ 1 then s
  else if reg s K.LOG_SIZE ≤ (reg s K.LOG_PRODUCER + 2 ^ 32 - reg s K.LOG_CONSUMER) % 2 ^ 32 then bump s K.PLB_LOG_DROPPED 1
  else
    let i := reg s K.LOG_PRODUCER
    let s := structWrite s (reg s K.LOG_PARTITION) (reg s K.LOG_BASE % 2 ^ 48) (i % max 1 (reg s K.LOG_SIZE) * 32) (logEntry s d abandoned)
    bump (setReg s K.LOG_PRODUCER ((i + 1) % 2 ^ 32)) K.PLB_LOGGED 1

/-- Close and log every open digest that satisfies `p`; the number closed. -/
def closeDigests (s : State) (abandoned : Bool) (p : Digest → Bool) : State × Nat :=
  let shut := s.digests.filter p
  let s := { s with digests := s.digests.filter (fun d => !p d) }
  (shut.foldl (fun s d => logDigest s d abandoned) s, shut.length)

/-- PLB_CLOSE (R130). -/
def execPlbClose (sid : Nat) (s : State) : Host.Outcome State Fault Refusal :=
  whenWorking s (onStream s sid 0x28 (fun s x =>
    let one := x.d.arg.testBit 16
    let r := closeDigests s false (fun d => decide (d.part = x.d.part ∧ d.kind = 1) && (!one || decide (d.tag = x.d.arg % 65536)))
    endStream r.1 sid 0 r.2))

end Sys2Proof.Machine
end

