-- ==== Sys2Proof/Machine/Hod.lean ====
section
/-! DEFINITION. The hod: stacks of records in segments, spills, fills and stalls (R116-R126). -/
namespace Sys2Proof.Machine

/-- An open stack. -/
def hodStack (s : State) (k : Nat) : Option HodStack := s.hod.find? (fun h => decide (h.num = k))

/-- The stack, open for a partition. -/
def hodOwned (s : State) (k q : Nat) : Option HodStack :=
  match hodStack s k with
  | some h => if h.part = q then some h else none
  | none => none

def putHod (s : State) (h : HodStack) : State := { s with hod := s.hod.map (fun g => if g.num = h.num then h else g) }

/-- Segments of the yard pool, and of the region (R116). -/
def hodYardSegs (s : State) : Nat := reg s K.SST_HOD_TILES / 64
def hodPorts (s : State) : List Nat := (List.range 16).filter (fun p => (reg s K.HOD_MP_PORTS).testBit p)
def hodRegionSegs (s : State) : Nat := (hodPorts s).length * reg s K.HOD_MP_SEGS

/-- Yard and region segments in use. -/
def yardSegsUsed (s : State) : List Nat := s.hod.flatMap (fun h => h.segs.filterMap (fun g => match g with | .yard k => some k | _ => none))
def regionSegsUsed (s : State) : List Nat := s.hod.flatMap (fun h => h.segs.filterMap (fun g => match g with | .region k => some k | _ => none))

/-- The lowest free segment of a pool (R71). -/
def freeSeg (used : List Nat) (n : Nat) : Option Nat :=
  let k := firstFree used (used.length + 1) 0
  if k < n then some k else none

/-- The place of tile i of a segment (R116). -/
def segLoc (s : State) (g : Seg) (i : Nat) : Loc :=
  match g with
  | .yard k => .yard (hodBase s + 64 * k + i)
  | .region j =>
    let ps := hodPorts s
    .stack ((ps[j % max 1 ps.length]?).getD 0) (reg s K.HOD_MP_OFFSET + j / max 1 ps.length * 64 + i)

/-- How an event names a tile that no name reaches (R386). -/
def identLoc : Loc → Ident
  | .yard k => identSlot k
  | .stack p o => identStack p o
  | _ => { unit := 0, detail := 0 }

/-- Copy the 64 tiles of one segment to another; the cause where a port fails. -/
def copySeg (s : State) (a b : Seg) (w : Who) : State × Option Nat :=
  (List.range 64).foldl (fun (acc : State × Option Nat) i =>
    match acc with
    | (s, some c) => (s, some c)
    | (s, none) =>
      let r := readLoc s (segLoc s a i) w false (identLoc (segLoc s a i))
      match r.2.fail with
      | some c => (r.1, some c)
      | none => writeLoc r.1 (segLoc s b i) r.2.tile w) (s, none)

/-- Yard segments of a stack. -/
def yardCount (h : HodStack) : Nat := (h.segs.filter (fun g => match g with | .yard _ => true | _ => false)).length

/-- Segment i of a stack is its top or lies in its prefetch window (R117, R118). -/
def segKept (s : State) (h : HodStack) (i : Nat) : Bool :=
  decide (i + 1 = h.segs.length) || (h.draining && decide (h.segs.length ≤ i + 1 + reg s K.HOD_PREFETCH))

/-- The deepest segment of a stack that may be a victim. -/
def victimIn (s : State) (h : HodStack) : Option (Nat × Nat) :=
  (List.range h.segs.length).findSome? (fun (i : Nat) =>
    match h.segs[i]? with
    | some (Seg.yard k) => if segKept s h i then none else some (i, k)
    | _ => none)

/-- The open stack that holds the most yard segments, the lowest number first (R117). -/
def mostYard (s : State) : Option HodStack :=
  s.hod.foldl (fun acc h =>
    match acc with
    | none => some h
    | some b => if yardCount b < yardCount h ∨ (yardCount b = yardCount h ∧ h.num < b.num) then some h else some b) none

/-- What taking a segment comes to. -/
inductive Took where
  | seg (g : Seg)
  | full
  | failed (c : Nat)
  deriving DecidableEq, Repr

/-- Take a segment for a push (R117). -/
def takeSeg (s : State) (w : Who) : State × Took :=
  match freeSeg (yardSegsUsed s) (hodYardSegs s) with
  | some k => (s, .seg (.yard k))
  | none =>
    match freeSeg (regionSegsUsed s) (hodRegionSegs s) with
    | none => (s, .full)
    | some j =>
      match mostYard s with
      | none => (s, .seg (.region j))
      | some h =>
        match victimIn s h with
        | none => (s, .seg (.region j))
        | some (i, k) =>
          match copySeg s (.yard k) (.region j) w with
          | (s, some c) => (s, .failed c)
          | (s, none) => (bump (putHod s { h with segs := h.segs.set i (.region j) }) K.HOD_SPILLS 1, .seg (.yard k))

/-- Tiles on a stack. -/
def hodTiles (h : HodStack) : Nat := (h.recs.map HodRec.tiles).sum

/-- No earlier accepted stream that names the stack is unfinished (R123). -/
def hodTurn (s : State) (x : Stream) : Bool :=
  !s.tracker.streams.any (fun y => y.taken && y.finish.isNone && decide (y.id < x.id) && decide (0x20 ≤ y.d.opcode ∧ y.d.opcode ≤ 0x26 ∧ y.d.opcode ≠ 0x25) &&
    decide (y.d.arg % 32 = x.d.arg % 32))

/-- A pop of partition q on stack k is accepted and has not ended (R118, R123). -/
def popWaits (s : State) (k q : Nat) : Bool :=
  s.tracker.streams.any (fun y => y.taken && y.finish.isNone && decide (y.d.opcode = 0x22 ∧ y.d.arg % 32 = k ∧ y.d.part = q))

/-- The acceptance of a pop: its stack drains from then on (R118). -/
def popAccepted (s : State) (d : Desc) : State :=
  if d.opcode = 0x22 then
    match hodOwned s (d.arg % 32) d.part with
    | some h => putHod s { h with draining := true }
    | none => s
  else s

/-- The tag of a hod descriptor (R121). -/
def hodTag (d : Desc) : Nat := bits d.arg 31 16

/-- Tiles of the top record on a stack with `n` more put on top. -/
def growTop (h : HodStack) : HodStack :=
  match h.recs with
  | r :: t => { h with recs := { r with tiles := r.tiles + 1 } :: t }
  | [] => h

/-- Store one tile on top of a stack, taking a segment where it needs one. -/
def pushTile (s : State) (k : Nat) (t : Tile) (w : Who) : State × Took :=
  match hodStack s k with
  | none => (s, .full)
  | some h =>
    let n := hodTiles h
    let got := if n < 64 * h.segs.length then (s, Took.seg ((h.segs[n / 64]?).getD (.yard 0))) else takeSeg s w
    match got with
    | (s, .seg g) =>
      match hodStack s k with
      | none => (s, .full)
      | some h =>
        let h := if n < 64 * h.segs.length then h else { h with segs := h.segs ++ [g] }
        match writeLoc (putHod s (growTop h)) (segLoc s g (n % 64)) t w with
        | (s, none) => (bump s K.HOD_PUSHED 1, .seg g)
        | (s, some c) => (putHod s h, .failed c)
    | (s, r) => (s, r)

/-- Begin a hod-full stall once (R119). -/
def stallHod (s : State) (k : Nat) : State :=
  match hodStack s k with
  | none => s
  | some h =>
    match h.stalled with
    | some _ => s
    | none =>
      let s := putHod s { h with stalled := some (upNs s) }
      raise (bump s K.HOD_FULL_EVENTS 1) 0x01 stHOD 0 (some h.part) false k

/-- End a stall, counting its time (R119). -/
def endStall (s : State) (k : Nat) : State :=
  match hodStack s k with
  | none => s
  | some h =>
    match h.stalled with
    | none => s
    | some t => bump (putHod s { h with stalled := none }) K.HOD_FULL_NS (upNs s - t)

/-- Push the tiles that have arrived, in order, for as long as segments last (R119, R128). -/
def pushLoop (sid k : Nat) (stats : Bool) : Nat → State → State
  | 0, s => s
  | fuel + 1, s =>
    match findStream s sid with
    | none => s
    | some x =>
      if x.pos = x.d.count then endStream s sid 0 0
      else
        match x.inbox with
        | [] => s
        | t :: rest =>
          match pushTile s k t (whoOf x) with
          | (s, .full) => stallHod s k
          | (s, .failed c) => failStream (endStall s k) sid 0x23 c
          | (s, .seg _) =>
            let s := endStall s k
            let s := if stats then s else plumbCopy (foldTile s x.d.part x.epoch 1 (hodTag x.d) (x.d.scalar % 2 ^ 48 + x.pos) t) x x.pos t
            pushLoop sid k stats fuel (markPoison (addDone (updStream s sid (fun y => { y with pos := y.pos + 1, inbox := rest })) sid 1) sid t)

/-- Begin a push's record at its first attempt (R122, R124). The stack stops draining, but for a pop accepted since (R118). -/
def openRecord (s : State) (x : Stream) (stats : Bool) : State :=
  let k := x.d.arg % 32
  match hodOwned s k x.d.part with
  | none => endStream s x.id 0x48 k
  | some h =>
    if 65536 ≤ h.recs.length then endStream s x.id 0x4C k
    else
      let g := if stats then 1 else max 1 (bits x.d.scalar 63 48)
      let r : HodRec := { tag := hodTag x.d, format := x.d.format, width := g, tiles := 0, stats := stats }
      updStream (putHod s { h with recs := r :: h.recs, draining := popWaits s k x.d.part }) x.id (fun y => { y with mark := 1 })

/-- A push, fresh or resumed. -/
def hodPush (s : State) (x : Stream) (stats : Bool) : State :=
  if !hodTurn s x then s
  else
    let s := if x.mark = 0 then openRecord s x stats else s
    match findStream s x.id with
    | some y => if y.mark = 1 ∧ y.finish.isNone ∧ !y.closing then pushLoop x.id (x.d.arg % 32) stats (x.d.count + 1) s else s
    | none => s

/-- Drop the segments that no tile of a stack needs. -/
def trimSegs (h : HodStack) : HodStack := { h with segs := h.segs.take (ceilDiv (hodTiles h) 64) }

/-- A tile turned about its diagonal (R125): element (r, c) goes to linear index c × rows + r, or back. A line is marked
where it holds an element of a marked line. VALID becomes the least count that takes in every valid element, and the elements from there on are
zero (R36). DESIGN CHOICE: log entry 99. -/
def transposeTile (t : Tile) : Tile :=
  let e := elemSize t.info.format
  let rows := fmtRows t.info.format
  let cols := fmtCols t.info.format
  let src := fun j => if t.info.transposed then (j % cols) * rows + j / cols else (j % rows) * cols + j / rows
  let a := t.data.toArray
  let valid := ((List.range (rows * cols)).filter (fun j => decide (src j < t.info.valid))).foldl (fun n j => max n (j + 1)) 0
  let data := (List.range 4096).map (fun b => if valid ≤ b / e then 0 else (a[src (b / e) * e + b % e]?).getD 0)
  let bad := (List.range 64).filter (fun l => (List.range (64 / e)).any (fun i => tileBad t (src (l * (64 / e) + i) * e / 64)))
  { data := data, info := { t.info with crc := BitVec.ofNat 32 (crc32c data), transposed := !t.info.transposed, valid := valid, poison := maskOf bad } }

/-- Read the tile at position n from the bottom of a stack. -/
def hodTileAt (s : State) (h : HodStack) (n : Nat) (w : Who) : State × Got :=
  let l := segLoc s ((h.segs[n / 64]?).getD (.yard 0)) (n % 64)
  readLoc s l w false (identLoc l)

/-- Positions of a record's tiles in delivery order (R125). -/
def popOrder (transpose : Bool) (n g : Nat) : List Nat :=
  if transpose then (List.range g).flatMap (fun j => (List.range (n / g)).map (fun i => i * g + j)) else List.range n

/-- Deliver tiles of a stack to EP in order. -/
def deliverHod (x : Stream) (h : HodStack) (base : Nat) (turn : Bool) : List Nat → State → State × Option Nat
  | [], s => (s, none)
  | p :: rest, s =>
    let r := hodTileAt s h (base + p) (whoOf x)
    match r.2.fail with
    | some c => (r.1, some c)
    | none =>
      let t := if turn then transposeTile r.2.tile else r.2.tile
      let done := match findStream r.1 x.id with | some y => y.tilesDone | none => 0
      deliverHod x h base turn rest (addDone (deliverEp r.1 x done t) x.id 1)

/-- HOD_OPEN (R121, R122). -/
def execHodOpen (sid : Nat) (s : State) : Host.Outcome State Fault Refusal :=
  whenWorking s (onStream s sid 0x20 (fun s x =>
    if !hodTurn s x then s
    else
      let k := x.d.arg % 32
      match hodStack s k with
      | some h => endStream s sid 0x49 h.part
      | none => endStream { s with hod := s.hod ++ [{ num := k, part := x.d.part, draining := popWaits s k x.d.part, recs := [], segs := [], stalled := none }] } sid 0 0))

/-- HOD_PUSH (R119, R121-R124, R128). -/
def execHodPush (sid : Nat) (s : State) : Host.Outcome State Fault Refusal :=
  whenWorking s (onStream s sid 0x21 (fun s x => hodPush s x false))

/-- HOD_PUSH_RESUME: a stalled push, of tiles or of statistics, goes on when a segment is free (R119). -/
def execHodPushResume (sid : Nat) (s : State) : Host.Outcome State Fault Refusal :=
  whenWorking s (onStream (onStream s sid 0x21 (fun s x => hodPush s x false)) sid 0x24 (fun s x => hodPush s x true))

/-- HOD_PREFETCH_FILL: one segment of a draining stack's window is filled back from the region (R118). -/
def execHodPrefetchFill (stack : Nat) (s : State) : Host.Outcome State Fault Refusal :=
  whenWorking s (
    match hodStack s stack with
    | none => s
    | some h =>
      if !h.draining then s
      else
        match freeSeg (yardSegsUsed s) (hodYardSegs s) with
        | none => s
        | some k =>
          let below := (List.range h.segs.length).reverse.filter (fun i => decide (i + 1 ≠ h.segs.length) && segKept s h i)
          match below.findSome? (fun (i : Nat) => match h.segs[i]? with | some (Seg.region j) => some (i, j) | _ => none) with
          | none => s
          | some (i, j) =>
            match copySeg s (.region j) (.yard k) { part := h.part, cls := 3, deadline := 0 } with
            | (s, some _) => s
            | (s, none) => bump (putHod s { h with segs := h.segs.set i (.yard k) }) K.HOD_FILLS 1)

/-- The check of a pop against its record (R121, R122). -/
def popMismatch (d : Desc) (r : HodRec) : Option Nat :=
  if r.tag ≠ hodTag d then some 1 else if r.tiles ≠ d.count then some 2 else if r.format ≠ d.format then some 3 else none

/-- HOD_POP (R121-R125). -/
def execHodPop (sid : Nat) (s : State) : Host.Outcome State Fault Refusal :=
  whenWorking s (onStream s sid 0x22 (fun s x =>
    if !hodTurn s x then s
    else
      let k := x.d.arg % 32
      match hodOwned s k x.d.part with
      | none => endStream s sid 0x48 k
      | some h =>
        match h.recs with
        | [] => endStream s sid 0x4A k
        | r :: rest =>
          match popMismatch x.d r with
          | some m => endStream s sid 0x4B m
          | none =>
            let h := { h with draining := true }
            let s := putHod s h
            let base := hodTiles h - r.tiles
            match deliverHod x h base x.d.transpose (popOrder x.d.transpose r.tiles r.width) s with
            | (s, some c) => failStream s sid 0x23 c
            | (s, none) => endStream (bump (putHod s (trimSegs { h with recs := rest })) K.HOD_POPPED r.tiles) sid 0 0))

/-- HOD_CLOSE (R121). -/
def execHodClose (sid : Nat) (s : State) : Host.Outcome State Fault Refusal :=
  whenWorking s (onStream s sid 0x23 (fun s x =>
    if !hodTurn s x then s
    else
      let k := x.d.arg % 32
      match hodOwned s k x.d.part with
      | none => endStream s sid 0x48 k
      | some h => endStream { s with hod := s.hod.filter (fun g => decide (g.num ≠ k)) } sid 0 (hodTiles h)))

/-- HOD_STATS_PUSH (R121, R126). -/
def execHodStatsPush (sid : Nat) (s : State) : Host.Outcome State Fault Refusal :=
  whenWorking s (onStream s sid 0x24 (fun s x => hodPush s x true))

/-- Entries of a recomputation order before key block `kb`, counting down from the last (R126). -/
def orderRow (causal : Bool) (bq bk kb : Nat) : Nat := if causal then kb * bk / bq else 0

/-- The entry at index n of a recomputation order, walking key blocks downward. -/
def orderEntry (causal : Bool) (bq bk nq : Nat) : Nat → Nat → Option Nat
  | 0, _ => none
  | kb + 1, n =>
    let first := orderRow causal bq bk kb
    let m := nq - first
    if n < m then some (kb * 65536 + (first + n)) else orderEntry causal bq bk nq kb (n - m)

/-- The entries of one order tile, from index n. -/
def orderTile (causal : Bool) (bq bk nq nk n : Nat) : List Nat :=
  (List.range 1024).filterMap (fun i => orderEntry causal bq bk nq nk (n + i))

/-- Deliver order tiles until the last entry (R126). -/
def orderLoop (x : Stream) (causal : Bool) (bq bk nq nk : Nat) : Nat → Nat → State → State
  | 0, _, s => s
  | fuel + 1, n, s =>
    let es := orderTile causal bq bk nq nk n
    if es = [] then s
    else
      let data := es.flatMap (natLe 4)
      let t := mkTile (data ++ zeros (4096 - data.length)) 6 es.length 0
      orderLoop x causal bq bk nq nk fuel (n + 1024) (addDone (deliverEp s x (x.d.count - fuel - 1) t) x.id 1)

/-- HOD_STATS_ORDER (R126). -/
def execHodStatsOrder (sid : Nat) (s : State) : Host.Outcome State Fault Refusal :=
  whenWorking s (onStream s sid 0x25 (fun s x =>
    let lq := x.d.arg % 8
    let lk := bits x.d.arg 6 4
    let len := x.d.scalar % 2 ^ 23
    let bq := 64 * 2 ^ lq
    let bk := 64 * 2 ^ lk
    if 6 < lq ∨ 6 < lk ∨ len = 0 ∨ 4194304 < len ∨ len % bq ≠ 0 ∨ len % bk ≠ 0 then endStream s sid 0x17 0
    else endStream (orderLoop x (x.d.arg.testBit 8) bq bk (len / bq) (len / bk) x.d.count (x.d.scalar / 2 ^ 32) s) sid 0 0))

/-- The statistics tile that starts at row `o` of one stored tile and goes on into the next (R121, R126): eight bytes a row. VALID is the least
count that takes in every valid element. DESIGN CHOICE: log entry 99. -/
def rowsFrom (o : Nat) (a b : Tile) : Tile :=
  if o = 0 then a
  else
    let data := a.data.drop (8 * o) ++ b.data.take (8 * o)
    let bad := (List.range 64).filter (fun l => [8 * o + 64 * l, 8 * o + 64 * l + 63].any (fun p => if p < 4096 then tileBad a (p / 64) else tileBad b (p / 64 - 64)))
    let n := if b.info.valid = 0 then a.info.valid - 2 * o else 1024 - 2 * o + min b.info.valid (2 * o)
    { data := data, info := { a.info with crc := BitVec.ofNat 32 (crc32c data), valid := n, poison := maskOf bad } }

/-- Deliver statistics tiles that start at row `o` of the stored ones, the tile before already read. -/
def deliverRows (x : Stream) (h : HodStack) (o : Nat) (before : Tile) : List Nat → State → State × Option Nat
  | [], s => (s, none)
  | p :: rest, s =>
    let r := hodTileAt s h p (whoOf x)
    match r.2.fail with
    | some c => (r.1, some c)
    | none =>
      let done := match findStream r.1 x.id with | some y => y.tilesDone | none => 0
      deliverRows x h o r.2.tile rest (addDone (deliverEp r.1 x done (rowsFrom o before r.2.tile)) x.id 1)

/-- Deliver a descriptor's statistics tiles from row `row` of the tiles that begin at position `base` (R121). -/
def deliverStats (x : Stream) (h : HodStack) (base row : Nat) (s : State) : State × Option Nat :=
  if row % 512 = 0 then deliverHod x h (base + row / 512) false (List.range x.d.count) s
  else
    let r := hodTileAt s h (base + row / 512) (whoOf x)
    match r.2.fail with
    | some c => (r.1, some c)
    | none => deliverRows x h (row % 512) r.2.tile ((List.range x.d.count).map (fun i => base + row / 512 + i + 1)) r.1

/-- HOD_STATS_READ (R121, R122, R126): every delivered tile holds 512 rows of the record. -/
def execHodStatsRead (sid : Nat) (s : State) : Host.Outcome State Fault Refusal :=
  whenWorking s (onStream s sid 0x26 (fun s x =>
    if !hodTurn s x then s
    else
      let k := x.d.arg % 32
      match hodOwned s k x.d.part with
      | none => endStream s sid 0x48 k
      | some h =>
        match (List.range h.recs.length).find? (fun i => match h.recs[i]? with | some r => r.stats && decide (r.tag = hodTag x.d) | none => false) with
        | none => endStream s sid 0x4B 4
        | some i =>
          let above := ((h.recs.take (i + 1)).map HodRec.tiles).sum
          let n := match h.recs[i]? with | some r => r.tiles | none => 0
          let row := x.d.scalar % 2 ^ 23
          if 512 * n < row + 512 * x.d.count then endStream s sid 0x4B 5
          else
            match deliverStats x h (hodTiles h - above) row s with
            | (s, some c) => failStream s sid 0x23 c
            | (s, none) => endStream s sid 0 0))

end Sys2Proof.Machine
end

