-- ==== Sys2Proof/Machine/General.lean ====
section
/-! DEFINITION. The general opcodes NOP and STREAM (R44-R46), and the release of a FENCE (R58). -/
namespace Sys2Proof.Machine

/-- The home tier that a hop requires of its tile's home (R45); any for HOM. -/
def hopTier (hop : Nat) : Option Nat := if hop = stSST then some 0 else if hop = stMP then some 1 else none

/-- The status with which a hop refuses a name: no home, or a home elsewhere (R45, R87). -/
def hopRefuses (s : State) (q hop name : Nat) : Option Nat :=
  match hopTier hop with
  | none => none
  | some t =>
    if isWbName s q name then some 0x21
    else if homeOf s q name = .none then some 0x22
    else if tierOfLoc (homeOf s q name) = t then none else some 0x21

/-- Read a tile by name at a hop (R45). DEDUCED: log entry 58. -/
def readHop (s : State) (x : Stream) (hop name : Nat) : State × NameRead :=
  match hopRefuses s x.d.part hop name with
  | some st => (s, .fail st 0)
  | none => readName s x name

/-- Write a tile by name at a hop (R45). -/
def writeHop (s : State) (x : Stream) (hop name : Nat) (t : Tile) : State × NameWrite :=
  match hopRefuses s x.d.part hop name with
  | some st => (s, .fail st 0)
  | none => writeName s x name t

/-- First and last hop of a route, and the plumb hops between them. -/
def srcHop (d : Desc) : Nat := (routeOf d).headD 0
def sinkHop (d : Desc) : Nat := (routeOf d).getLastD 0
def plumbHops (d : Desc) : Nat := ((routeOf d).filter (fun h => decide (h = stPLB))).length

/-- A STREAM narrows, or widens. -/
def narrows (d : Desc) : Bool := decide (d.format = 1 ∧ d.outFormat ≠ 1)
def widens (d : Desc) : Bool := decide (d.outFormat = 1 ∧ d.format ≠ 1)

/-- n of R46. -/
def convN (d : Desc) : Nat := if narrows d then tilesPer d.outFormat else if widens d then tilesPer d.format else 1

/-- The name under which a STREAM's digest folds source tile i (R128). -/
def foldName (d : Desc) (i : Nat) : Nat :=
  if srcHop d ≠ stEP then d.src + i
  else if sinkHop d = stEP then i
  else if narrows d then d.dst + i / convN d
  else if widens d then d.dst + convN d * i
  else d.dst + i

/-- The plumb's share of a source tile: each PLB hop folds it, or copies it to the host (R127, R128, R131). DEDUCED: log entry 59. -/
def plumbPass (s : State) (x : Stream) (i : Nat) (t : Tile) : State :=
  (List.range (plumbHops x.d)).foldl (fun s _ => plumbCopy (foldTile s x.d.part x.epoch 1 x.d.tensor (foldName x.d i) t) x i t) s

/-- Deliver one tile at the last hop as tile number `k`. -/
def deliver (s : State) (x : Stream) (k : Nat) (t : Tile) : State × NameWrite :=
  if sinkHop x.d = stEP then (addDone (deliverEp s x k t) x.id 1, .ok)
  else
    match writeHop s x (sinkHop x.d) (x.d.dst + k) t with
    | (s, .ok) => (addDone (markPoison s x.id t) x.id 1, .ok)
    | r => r

/-- Deliver tiles numbered from `k`, those below `from'` being delivered already. -/
def deliverFrom (x : Stream) (from' : Nat) : Nat → List Tile → State → State × NameWrite
  | _, [], s => (s, .ok)
  | k, t :: rest, s =>
    if k < from' then deliverFrom x from' (k + 1) rest s
    else
      match deliver s x k t with
      | (s, .ok) => deliverFrom x from' (k + 1) rest s
      | r => r

/-- The source tile a STREAM takes next. -/
def nextSource (s : State) (x : Stream) : State × NameRead :=
  if srcHop x.d = stEP then (match x.inbox with | t :: _ => (s, .ok t) | [] => (s, .wait))
  else readHop s x (srcHop x.d) (x.d.src + x.pos)

/-- A tile does not suit a conversion (R46). -/
def unsuited (d : Desc) (t : Tile) : Bool := decide (d.format ≠ d.outFormat) && (decide (t.info.format ≠ d.format) || t.info.transposed)

/-- What the sink makes of a source tile: the tiles to deliver and the number of the first, and the tiles that wait for their
group (R46). -/
structure Made where
  first : Nat
  out : List Tile
  pending : List Tile
  narrowed : List Narrowed
  deriving DecidableEq, Repr

/-- The sink's conversion of source tile x.pos. -/
def convert (x : Stream) (t : Tile) : Made :=
  if narrows x.d then
    let g := x.pending ++ [t]
    if g.length = convN x.d then
      match fmtOfCode x.d.outFormat with
      | some f => let r := narrowTiles f x.d.outFormat g; { first := x.pos / convN x.d, out := [r.1], pending := [], narrowed := r.2 }
      | none => { first := 0, out := [], pending := [], narrowed := [] }
    else { first := 0, out := [], pending := g, narrowed := [] }
  else if widens x.d then
    match fmtOfCode x.d.format with
    | some f => { first := x.pos * convN x.d, out := widenTile f x.d.format t, pending := [], narrowed := [] }
    | none => { first := 0, out := [], pending := [], narrowed := [] }
  else { first := x.pos, out := [t], pending := [], narrowed := [] }

/-- Put a source tile that a peer sent back until it can be delivered. -/
def putBack (s : State) (x : Stream) (t : Tile) : State :=
  if srcHop x.d = stEP then s
  else
    match homeOf s x.d.part (x.d.src + x.pos) with
    | .peer _ _ => updStream s x.id (fun y => { y with fetched := smapPut y.fetched (x.d.src + x.pos) t })
    | _ => s

/-- Copy tiles in ascending order until one is awaited, or the stream ends (R45, R46). -/
def streamLoop (sid : Nat) : Nat → State → State
  | 0, s => s
  | fuel + 1, s =>
    match findStream s sid with
    | none => s
    | some x =>
      if x.pos = x.d.count then endStream s sid 0 0
      else
        match nextSource s x with
        | (s, .wait) => s
        | (s, .fail a b) => failStream s sid a b
        | (s, .ok t) =>
          if unsuited x.d t then failStream (plumbPass s x x.pos t) sid 0x20 0
          else
            let m := convert x t
            match deliverFrom x x.tilesDone m.first m.out s with
            | (s, .wait) => putBack s x t
            | (s, .fail a b) => failStream (plumbPass s x x.pos t) sid a b
            | (s, .ok) =>
              let s := countNarrow (plumbPass s x x.pos t) m.narrowed
              streamLoop sid fuel (updStream s sid (fun y => { y with pos := y.pos + 1, inbox := y.inbox.drop 1, pending := m.pending }))

/-- NOP (R44). -/
def execNop (sid : Nat) (s : State) : Host.Outcome State Fault Refusal :=
  whenWorking s (onStream s sid 0x00 (fun s _ => endStream s sid 0 0))

/-- STREAM (R45, R46). -/
def execStream (sid : Nat) (s : State) : Host.Outcome State Fault Refusal :=
  whenWorking s (onStream s sid 0x01 (fun s x => streamLoop sid (x.d.count + 1) s))

/-- A stream with FENCE starts once every earlier descriptor of its queue has its record (R58). -/
def fenceFree (s : State) (x : Stream) : Bool :=
  !s.tracker.streams.any (fun y => decide (y.queue = x.queue ∧ y.id < x.id))

/-- FENCE_RELEASE (R58). -/
def execFenceRelease (sid : Nat) (s : State) : Host.Outcome State Fault Refusal :=
  whenWorking s (
    match findStream s sid with
    | some x => if x.taken && x.fenceWait && fenceFree s x then putStream s { x with fenceWait := false } else s
    | none => s)

end Sys2Proof.Machine
end

