-- ==== Sys2Proof/Machine/Hom.lean ====
section
/-! DEFINITION. HOM's opcodes: binding, unbinding and moving homes, reading the map, and the write-back cache's flushes
(R81-R89). -/
namespace Sys2Proof.Machine

/-- Tiles that a table of `n` entries of `per` to a tile fills. -/
def tableTiles (n per : Nat) : Nat := ceilDiv n per

/-- The ranges of partition q that the block keeps in place: rings, digest log, member and rank tables, ledger, barrier and
window tables (R49, R133, R180, R233, R260, R337, R345). -/
def pinnedRanges (s : State) (q : Nat) : List (Nat × Nat) :=
  let name := fun k => reg s k % 2 ^ 48
  ((rangeFrom (4 * q) 4).flatMap (fun i =>
    if reg s (K.Q_STATE i) = 0 then [] else [(name (K.DQ_BASE i), reg s (K.DQ_SIZE i) / 64), (name (K.CQ_BASE i), reg s (K.CQ_SIZE i) / 256)])) ++
  (if reg s K.LOG_STATE = 1 ∧ reg s K.LOG_PARTITION = q then [(name K.LOG_BASE, reg s K.LOG_SIZE / 128)] else []) ++
  (if reg s (K.RG_STATE q) = 1 then [(name (K.RG_TABLE q), tableTiles (reg s (K.RG_SIZE q)) 512)] else []) ++
  (if hasWythe s q then [(name (K.MEMBER_TABLE q), 1), (name (K.LEDGER_FIRST q), 2)] else []) ++
  (if reg s (K.BG_STATE q) = 1 then [(name (K.BG_TABLE q), tableTiles (reg s (K.BG_SIZE q)) 1024)] else []) ++
  (if reg s (K.WIN_STATE q) = 1 then [(name (K.WIN_TABLE q), 1)] else [])

/-- A name is kept in place. -/
def pinned (s : State) (q first n : Nat) : Bool := (pinnedRanges s q).any (fun r => overlaps first n r.1 r.2)

/-- The unit that begins at a name: a brick of a coded or gradient range, or a tile (R83). -/
def unitTiles (s : State) (q name : Nat) : Nat := if (courseOf s q name).isSome then 16 else 1

/-- The target of a bind or a move (R81); an offset in peer memory counts modulo 2^40, the width of its field. DESIGN CHOICE: log entry 99. -/
def targetLoc (d : Desc) (i : Nat) : Loc :=
  if d.arg % 4 = 1 then .stack (bits d.arg 5 2) (d.scalar % 2 ^ 40 + i) else .peer (bits d.arg 13 6) ((d.scalar + i) % 2 ^ 40)

/-- The REJ statuses of HOM's homing opcodes, in R82's order. -/
def homReject (s : State) (x : Stream) : Option Nat :=
  let d := x.d
  let placed := decide (d.opcode = 0x10 ∨ d.opcode = 0x12)
  if placed && decide (d.arg % 4 = 3) then some 0x17
  else if reg s (K.WB_SLOTS d.part) ≠ 0 ∧ overlaps d.src d.count (reg s (K.WB_FIRST d.part)) (reg s (K.WB_NAMES d.part)) then some 0x41
  else if decide (d.opcode = 0x11 ∨ d.opcode = 0x12) && pinned s d.part d.src d.count then some 0x1E
  else if placed && decide (d.arg % 4 = 1) && decide (reg s (K.MP_TILE_LIMIT (bits d.arg 5 2)) < d.scalar % 2 ^ 40 + d.count) then some 0x42
  else none

/-- Have the map lines of a unit's names in the cache (R80). -/
def fetchUnit (s : State) (q : Nat) : List Nat → State × Option Nat
  | [] => (s, none)
  | n :: t =>
    match mapFetch s q n with
    | (s, none) => fetchUnit s q t
    | (s, some d) => (s, some d)

/-- What treating one unit comes to. -/
inductive UnitDone where
  | ok (moved : Nat)
  | wait
  | fail (status detail : Nat)
  deriving DecidableEq, Repr

/-- The first address past a unit. -/
def unitNames (first n : Nat) : List Nat := rangeFrom first n

/-- Make a unit's map update (R80, R83). -/
def updateUnit (s : State) (q : Nat) (l : List (Nat × Nat)) (moved : Nat) : State × UnitDone :=
  match mapUpdate s q l with
  | (s, none) => (s, .ok moved)
  | (s, some d) => (s, .fail 0x23 d)

/-- Bind one unit (R81, R82). -/
def bindUnit (s : State) (x : Stream) (first n : Nat) : State × UnitDone :=
  let q := x.d.part
  let names := unitNames first n
  if !names.all (hmCovers s q) then (s, .fail 0x22 x.pos)
  else
    match fetchUnit s q names with
    | (s, some d) => (s, .fail 0x23 d)
    | (s, none) =>
      if names.any (fun m => decide (entryOf s q m % 4 ≠ 3)) then (s, .fail 0x43 x.pos)
      else if x.d.arg % 4 = 0 then
        let slots := allocSlots s n
        if slots = [] then (s, .fail 0x40 x.pos)
        else
          let s := slots.foldl (fun s k => writeSlot s k (zeroTile x.d.format) (whoOf x)) s
          updateUnit s q (List.zip names (slots.map (fun k => entryOfLoc (.yard k)))) n
      else updateUnit s q (names.map (fun m => (m, entryOfLoc (targetLoc x.d (m - x.d.src))))) n

/-- A MOVE of another stream holds a name's unit in motion (R84). -/
def movingElsewhere (s : State) (x : Stream) (name : Nat) : Bool :=
  inMotion (s.tracker.streams.filter (fun y => decide (y.id ≠ x.id))) x.d.part name

/-- Unbind one unit (R81): a covered name that has no home stays without one. -/
def unbindUnit (s : State) (x : Stream) (first n : Nat) : State × UnitDone :=
  let q := x.d.part
  let names := unitNames first n
  if !names.all (hmCovers s q) then (s, .fail 0x22 x.pos)
  else if names.any (movingElsewhere s x) then (s, .wait)
  else
    match fetchUnit s q names with
    | (s, some d) => (s, .fail 0x23 d)
    | (s, none) => updateUnit s q (names.map (fun m => (m, 3))) n

/-- A tile as a move carries it: its lines, its metadata, and whether its metadata line is poisoned or uncorrectable (R85). -/
structure CarriedTile where
  lines : List Line
  info : TileMeta
  metaBad : Bool
  deriving DecidableEq, Repr

/-- What a move reads of a tile, or the cause where a port failed (R85). -/
inductive Carried where
  | ok (t : CarriedTile)
  | fail (detail : Nat)
  deriving DecidableEq, Repr

/-- The metadata of a tile whose metadata line is bad, where that line holds other tiles' too or is no line: every line poisoned.
DESIGN CHOICE: log entry 99. -/
def carriedInfo (t : CarriedTile) : TileMeta := if t.metaBad then { t.info with poison := BitVec.allOnes 64 } else t.info

/-- Decode a tile's lines for a move: counted, written nowhere back, its CRC unchecked (R85). -/
def moveLines (s : State) (base ma off : Nat) : State × Carried :=
  let m := peekLine s.mem ma
  let s := countFound s ma m.found
  let ls := (List.range 64).map (fun j => peekLine s.mem (base + 64 * j))
  let s := (List.range 64).foldl (fun s j => match ls[j]? with | some l => countFound s (base + 64 * j) l.found | none => s) s
  (s, .ok { lines := ls.map (fun l => carried l.bytes l.poison), info := metaOf (bytesAt m.bytes off 16), metaBad := m.poison })

/-- Read a tile of home tier 0 or 1 for a move. -/
def moveRead (s : State) (l : Loc) (w : Who) : State × Carried :=
  match l with
  | .yard k => moveLines (bump (charge s w.part w.cls 0 4096) (K.TIER_READ_BYTES 0) 4096) (yardAddr k 0) (yardMetaAddr k) (yardMetaOff k)
  | .stack p o =>
    match mpTransaction s p with
    | (s, some c) => (s, .fail (tierDetail c p 1))
    | (s, none) => moveLines (bump (charge s w.part w.cls (p + 1) 4096) (K.TIER_READ_BYTES 1) 4096) (mpAddr (mpTile p o 0)) (metaLineAddr s p o) 0
  | .peer _ _ => (s, .fail (tierDetail 4 0 2))
  | .none => (s, .fail 0)

/-- Mark the metadata line of a stack's tile poisoned. -/
def putMetaMark (s : State) (p o : Nat) : State :=
  storeLine s (metaLineAddr s p o) { rawLine s.mem (metaLineAddr s p o) with mark := poisonMark }

/-- Write what a move carries at its new home: a bad metadata line is written marked in a stack, where it is the tile's own. -/
def moveWrite (s : State) (l : Loc) (t : CarriedTile) (w : Who) : State × Option Nat :=
  match l with
  | .yard k => (writeSlotLines s k t.lines (carriedInfo t) w, none)
  | .stack p o =>
    match writeStackLines s p o t.lines t.info w with
    | (s, none) => (if t.metaBad then putMetaMark s p o else s, none)
    | r => r
  | .peer _ _ => (s, some (tierDetail 4 0 2))
  | .none => (s, some 0)

/-- A carried tile as a whole tile, its marked lines in its poison field. -/
def carriedTile (t : CarriedTile) : Tile :=
  { data := lineData t.lines, info := { carriedInfo t with poison := (carriedInfo t).poison ||| maskOf (lineBad t.lines) } }

/-- What a move has read of a unit's tiles, all or none. -/
inductive UnitRead where
  | ok (l : List CarriedTile)
  | wait
  | fail (status detail : Nat)
  deriving DecidableEq, Repr

/-- Read the tiles of a unit at their old homes (R85); a peer's tile is asked for once. -/
def moveReads (s : State) (x : Stream) : List Nat → State × UnitRead
  | [] => (s, .ok [])
  | n :: t =>
    let l := homeOf s x.d.part n
    let r : State × UnitRead := match l with
      | .peer win o =>
        match readPeer s x n win o (whoOf x) with
        | (s, .ok v) => (s, .ok [{ lines := tileLines v, info := v.info, metaBad := false }])
        | (s, .wait) => (s, .wait)
        | (s, .fail a b) => (s, .fail a b)
      | l =>
        match moveRead s l (whoOf x) with
        | (s, .ok v) => (s, .ok [v])
        | (s, .fail d) => (s, .fail 0x23 d)
    match r with
    | (s, .ok v) =>
      match moveReads s x t with
      | (s, .ok vs) => (s, .ok (v ++ vs))
      | (s, .wait) =>
        match l, v with
        | .peer _ _, [c] => (updStream s x.id (fun y => { y with fetched := smapPut y.fetched n (carriedTile c) }), .wait)
        | _, _ => (s, .wait)
      | (s, .fail a b) => (s, .fail a b)
    | (s, .wait) =>
      match moveReads s x t with
      | (s, .fail a b) => (s, .fail a b)
      | (s, _) => (s, .wait)
    | (s, .fail a b) => (s, .fail a b)

/-- Write a unit's tiles at new homes in this block (R83, R85). -/
def moveWrites (s : State) (w : Who) : List (Loc × CarriedTile) → State × Option Nat
  | [] => (s, none)
  | (l, c) :: t =>
    match moveWrite s l c w with
    | (s, none) => moveWrites s w t
    | r => r

/-- Send a unit's tiles to new homes in peer memory. -/
def moveSends (s : State) (x : Stream) : List (Loc × CarriedTile) → State × Bool
  | [] => (s, true)
  | (l, c) :: t =>
    match l with
    | .peer win o =>
      match sendStore s x.d.part win o (carriedTile c) (.write x.id) (whoOf x) with
      | (s, .sent) => moveSends (bump (updStream s x.id (fun y => { y with unacked := y.unacked + 1 })) (K.TIER_WRITE_BYTES 2) 4096) x t
      | (s, _) => (s, false)
    | _ => (s, false)

/-- Move one unit (R81-R85). `mark` is the unit's tiles while they are read, and 32 more once they are sent
to a peer. -/
def moveUnit (s : State) (x : Stream) (first n : Nat) : State × UnitDone :=
  let q := x.d.part
  let names := unitNames first n
  if names.any (fun m => movingElsewhere s x m || smapHas s.homes.awayOut (q * 2 ^ 48 + m)) then (s, .wait)
  else
    match fetchUnit s q names with
    | (s, some d) => (s, .fail 0x23 d)
    | (s, none) =>
      if names.any (fun m => decide (homeOf s q m = .none)) then (s, .fail 0x22 x.pos)
      else
        let need := names.filter (fun m =>
          if x.d.arg % 4 = 0 then decide (tierOfLoc (homeOf s q m) ≠ 0) else decide (homeOf s q m ≠ targetLoc x.d (m - x.d.src)))
        let slots := if x.d.arg % 4 = 0 then allocSlots s need.length else []
        if need = [] then (s, .ok 0)
        else if x.d.arg % 4 = 0 ∧ slots = [] then (s, .fail 0x40 x.pos)
        else
          let news := if x.d.arg % 4 = 0 then slots.map Loc.yard else need.map (fun m => targetLoc x.d (m - x.d.src))
          let entries := List.zip need (news.map entryOfLoc)
          if 32 < x.mark then (if x.unacked = 0 then updateUnit s q entries need.length else (s, .wait))
          else
            match moveReads s x need with
            | (s, .fail a b) => (s, .fail a b)
            | (s, .wait) => (updStream s x.id (fun y => { y with mark := n }), .wait)
            | (s, .ok vs) =>
              let out := List.zip news vs
              if x.d.arg % 4 = 2 then
                if 16384 < s.fabric.reqs.length + need.length then
                  (updStream s x.id (fun y => { y with mark := n, fetched := (List.zip need vs).foldl (fun m nv => smapPut m nv.1 (carriedTile nv.2)) y.fetched }), .wait)
                else
                  match moveSends s x out with
                  | (s, true) => (updStream s x.id (fun y => { y with mark := n + 32 }), .wait)
                  | (s, false) => (s, .fail 0x23 (tierDetail 7 0 2))
              else
                match moveWrites s (whoOf x) out with
                | (s, some d) => (s, .fail 0x23 d)
                | (s, none) => updateUnit s q entries need.length

/-- Treat a descriptor's units in ascending order (R83): `pos` counts the tiles treated, `ordinal` those whose data moved. -/
def unitLoop (f : State → Stream → Nat → Nat → State × UnitDone) (sid : Nat) (detail : Stream → Nat) : Nat → State → State
  | 0, s => s
  | fuel + 1, s =>
    match findStream s sid with
    | none => s
    | some x =>
      if x.d.count ≤ x.pos then endStream s sid 0 (detail x)
      else
        let first := x.d.src + x.pos
        let n := unitTiles s x.d.part first
        match f s x first n with
        | (s, .ok m) => unitLoop f sid detail fuel (updStream s sid (fun y => { y with pos := y.pos + n, ordinal := y.ordinal + m, mark := 0, asked := [] }))
        | (s, .wait) => s
        | (s, .fail a b) => endStream s sid a b

/-- Run a homing opcode after its REJ checks; they are decided once, before any name is touched. DEDUCED: log entry 21. -/
def homRun (s : State) (x : Stream) (f : State → Stream → Nat → Nat → State × UnitDone) (detail : Stream → Nat) : State :=
  match (if x.pos = 0 ∧ x.mark = 0 ∧ x.asked = [] then homReject s x else none) with
  | some st => endStream s x.id st 0
  | none => unitLoop f x.id detail (x.d.count + 1) s

/-- HOME_BIND (R81, R82). -/
def execHomeBind (sid : Nat) (s : State) : Host.Outcome State Fault Refusal :=
  whenWorking s (onStream s sid 0x10 (fun s x => homRun s x bindUnit (fun _ => 0)))

/-- HOME_UNBIND (R81, R82). -/
def execHomeUnbind (sid : Nat) (s : State) : Host.Outcome State Fault Refusal :=
  whenWorking s (onStream s sid 0x11 (fun s x => homRun s x unbindUnit (fun _ => 0)))

/-- MOVE (R81-R85). -/
def execMove (sid : Nat) (s : State) : Host.Outcome State Fault Refusal :=
  whenWorking s (onStream s sid 0x12 (fun s x => homRun s x moveUnit (fun y => y.ordinal)))

/-- One tile of home entries from name `first` (R81). -/
def entryTile (s : State) (q first n : Nat) : Tile :=
  let b := (rangeFrom first n).flatMap (fun m => natLe 8 (entryOf s q m))
  mkTile (b ++ zeros (4096 - b.length)) 0 b.length 0

/-- Write the tiles of home entries from tile `pos` on. -/
def homeReadLoop (sid : Nat) : Nat → State → State
  | 0, s => s
  | fuel + 1, s =>
    match findStream s sid with
    | none => s
    | some x =>
      if ceilDiv x.d.count 512 ≤ x.pos then endStream s sid 0 0
      else
        let q := x.d.part
        let n := min 512 (x.d.count - 512 * x.pos)
        let first := x.d.src + 512 * x.pos
        match fetchUnit s q (rangeFrom first n) with
        | (s, some d) => failStream s sid 0x23 d
        | (s, none) =>
          match writeHop s x stSST (x.d.dst + x.pos) (entryTile s q first n) with
          | (s, .ok) => homeReadLoop sid fuel (addDone (updStream s sid (fun y => { y with pos := y.pos + 1 })) sid 1)
          | (s, .wait) => s
          | (s, .fail a b) => failStream s sid a b

/-- HOME_READ (R81). -/
def execHomeRead (sid : Nat) (s : State) : Host.Outcome State Fault Refusal :=
  whenWorking s (onStream s sid 0x13 (fun s x =>
    match (if x.pos = 0 then homReject s x else none) with
    | some st => endStream s sid st 0
    | none => homeReadLoop sid (x.d.count + 1) s))

/-- The cached tiles of a descriptor's names, ascending. -/
def wbNamed (s : State) (d : Desc) : List WbTile :=
  (rangeFrom d.src d.count).filterMap (fun n => wbFind s d.part n)

/-- Write back the dirty tiles of a list in turn: how many, and the failure's DETAIL where one fails (R88). -/
def flushTiles (w : Who) : List WbTile → Nat → State → State × Nat × Option Nat
  | [], n, s => (s, n, none)
  | t :: rest, n, s =>
    if !t.dirty then flushTiles w rest n s
    else
      match wbWriteBack s t w with
      | (s, some c) => (s, n, some c)
      | (s, none) => flushTiles w rest (n + 1) s

/-- Drop cached tiles, discarding dirty contents (R88). -/
def dropTiles (s : State) (l : List WbTile) : State :=
  l.foldl (fun s t =>
    let s := match wbFind s t.part t.name with | some y => if y.dirty then bump s K.WB_DISCARDED 1 else s | none => s
    wbDrop s t.part t.name) s

/-- A write-back opcode: `flush` writes dirty tiles back, where nothing is dropped those that were dirty at the descriptor's acceptance, and
`drop` drops every tile (R88). -/
def wbRun (s : State) (x : Stream) (flush drop : Bool) : State :=
  if !(rangeFrom x.d.src x.d.count).all (isWbName s x.d.part) then endStream s x.id 0x41 0
  else
    let l := wbNamed s x.d
    let due := if drop then l else l.filter (fun t => x.asked.contains t.name)
    match (if flush then flushTiles (whoOf x) due 0 s else (s, 0, none)) with
    | (s, _, some c) => failStream s x.id 0x23 c
    | (s, n, none) => endStream (if drop then dropTiles s l else s) x.id 0 n

/-- WB_FLUSH (R88). -/
def execWbFlush (sid : Nat) (s : State) : Host.Outcome State Fault Refusal :=
  whenWorking s (onStream s sid 0x18 (fun s x => wbRun s x true false))

/-- WB_INVALIDATE (R88). -/
def execWbInvalidate (sid : Nat) (s : State) : Host.Outcome State Fault Refusal :=
  whenWorking s (onStream s sid 0x19 (fun s x => wbRun s x false true))

/-- WB_FLUSH_INVALIDATE (R88). -/
def execWbFlushInvalidate (sid : Nat) (s : State) : Host.Outcome State Fault Refusal :=
  whenWorking s (onStream s sid 0x1A (fun s x => wbRun s x true true))

end Sys2Proof.Machine
end

