-- ==== Sys2Proof/Machine/Trough.lean ====
section
/-! DEFINITION. The trough: layers, ordinals and their sums, masks, row contributions and layer-done (R158-R178). -/
namespace Sys2Proof.Machine

/-- Partition q computes a step in reference mode: as ARITH_MODE says, or, where a roll forward has set it anew, as the step began (R110, R294). -/
def refMode (s : State) (q epoch : Nat) : Bool :=
  match smapGet s.members.arith q with
  | some v => if v / 2 = epoch then decide (v % 2 = 1) else decide (reg s (K.ARITH_MODE q) = 1)
  | none => decide (reg s (K.ARITH_MODE q) = 1)

/-- The rounding context of a sum of partition q in a step (R103, R104, R107). -/
def srCtx (s : State) (q epoch tensor site elem : Nat) : SrCtx :=
  { reference := refMode s q epoch, seed := reg s (K.JOB_SEED q), step := epoch, tensor := tensor, site := site, elem := elem }

/-- A layer by its number. -/
def layerAt (s : State) (num : Nat) : Option Layer := s.layers.find? (fun l => decide (l.num = num))

/-- The open layer of a partition whose range holds a name (R161). -/
def layerOf (s : State) (q name : Nat) : Option Layer :=
  s.layers.find? (fun l => decide (l.part = q ∧ l.first ≤ name ∧ name < l.first + l.tiles))

def putLayer (s : State) (l : Layer) : State := { s with layers := s.layers.map (fun m => if m.num = l.num then l else m) }

/-- Free a layer's storage (R173). -/
def freeLayer (s : State) (num : Nat) : State := { s with layers := s.layers.filter (fun l => decide (l.num ≠ num)) }

/-- Slots of the trough region now free (R177). -/
def troughFree (s : State) : Nat := reg s K.SST_TROUGH_TILES - (s.layers.map Layer.slots).sum

/-- Slots that a layer takes (R160). -/
def layerSlots (reference : Bool) (tiles m : Nat) (unit : Option Nat) : Nat :=
  let d := if m ≤ 1 then 1 else m.log2
  (if reference then 2 * d * tiles else d * tiles) +
    (match unit with | some u => ceilDiv (ceilDiv (1024 * tiles) (2 ^ u)) 32768 | none => 0)

/-- The runs of slots that the open layers hold, ascending. -/
def troughRuns (s : State) : List (Nat × Nat) := (s.layers.flatMap Layer.place).foldl (fun m r => smapPut m r.1 r.2) ([] : SMap Nat)

/-- The free runs below slot `hi`, from slot `lo` on, between used runs. -/
def gapsBetween (hi : Nat) : Nat → List (Nat × Nat) → List (Nat × Nat)
  | lo, [] => if lo < hi then [(lo, hi - lo)] else []
  | lo, (a, n) :: t => (if lo < a then [(lo, a - lo)] else []) ++ gapsBetween hi (a + n) t

/-- The first `n` slots of a list of runs. -/
def takeRuns : Nat → List (Nat × Nat) → List (Nat × Nat)
  | _, [] => []
  | n, (a, k) :: t => if n = 0 then [] else (a, min n k) :: takeRuns (n - k) t

/-- The place of a layer of `n` slots: the lowest free run of the region that holds it, or the lowest free slots (R71). DEDUCED: log entry 22. -/
def troughPlace (s : State) (n : Nat) : List (Nat × Nat) :=
  let g := gapsBetween (troughBase s + reg s K.SST_TROUGH_TILES) (troughBase s) (troughRuns s)
  match g.find? (fun r => decide (n ≤ r.2)) with
  | some r => [(r.1, n)]
  | none => takeRuns n g

/-- The number, within a place, of a yard slot. -/
def slotIndex (slot : Nat) : List (Nat × Nat) → Option Nat
  | [] => none
  | (a, n) :: t => if a ≤ slot ∧ slot < a + n then some (slot - a) else (slotIndex slot t).map (fun i => i + n)

/-- The yard slot of number i of a place. -/
def slotOfIndex : List (Nat × Nat) → Nat → Nat
  | [], _ => 0
  | (a, n) :: t, i => if i < n then a + i else slotOfIndex t (i - n)

/-- The accumulating descriptors (R163, R170). -/
def accumulates (d : Desc) : Bool :=
  decide (d.opcode = 0x41 ∨ d.opcode = 0x42) || (decide (d.opcode = 0x32 ∨ d.opcode = 0x34) && decide ((routeOf d).getLastD 0 = stTRG))

/-- Give ordinals, in order of acceptance, to the accumulating descriptors of open layers that have none (R163). -/
def giveOrdinals (s : State) : State :=
  (s.tracker.streams.map Stream.id).foldl (fun s i =>
    match findStream s i with
    | none => s
    | some x =>
      if x.taken && x.finish.isNone && !x.closing && accumulates x.d && decide (x.mark = 0) then
        match layerOf s x.d.part x.d.dst with
        | none => s
        | some l =>
          if l.queue = x.queue ∧ l.state = 1 ∧ l.taken < l.m then
            updStream (putLayer s { l with taken := l.taken + 1 }) i (fun y => { y with ordinal := l.taken, mark := 1 })
          else s
      else s) s

/-- Whether an element of a layer is masked (R165). -/
def maskedElem (l : Layer) (e : Nat) : Bool :=
  match l.unit with
  | none => false
  | some u => !((l.mask[e / 2 ^ u / 8]?).getD 0).getLsbD (e / 2 ^ u % 8)

/-- Add a term to an element; a term of +0 is the term of an ordinal that does not touch it (R164). -/
def addTerm (l : Layer) (ord e : Nat) (p : Part) : Layer :=
  if p.s = 0 ∧ p.c = 0 then l
  else { l with terms := smapPut l.terms e (smapPut ((smapGet l.terms e).getD []) ord p) }

/-- Mark a layer line poisoned, if its elements are not masked (R174). -/
def markLayerLine (s : State) (num line : Nat) : State :=
  match layerAt s num with
  | none => s
  | some l =>
    if l.bad.contains line || maskedElem l (16 * line) then s
    else bump (putLayer s { l with bad := line :: l.bad }) K.TRG_POISON_LINES 1

/-- The layer line that line j of slot number i of its place holds words of; none where the slot holds its mask. DEDUCED: log entry 22. -/
def lineOfSlot (l : Layer) (i j : Nat) : Option Nat :=
  if i < layerSlots l.reference l.tiles l.m none then some (64 * (i % l.tiles) + j) else none

/-- The stored lines of a layer whose check bytes are not clean, among the layer lines that `p` names: each one's address and layer line. -/
def layerMarks (s : State) (l : Layer) (p : Nat → Bool) : List (Nat × Nat) :=
  s.mem.marks.filterMap (fun e =>
    match (slotIndex (e.1 / 64) l.place).bind (fun i => lineOfSlot l i (e.1 % 64)) with
    | some n => if p n && decide (e.2 ≠ (0 : Word32)) then some (64 * e.1, n) else none
    | none => none)

/-- The trough reads stored lines of a layer: one that is poisoned or uncorrectable marks the layer line (R174). -/
def scanLayer (s : State) (l : Layer) (p : Nat → Bool) : State :=
  (layerMarks s l p).foldl (fun s e => let r := readLine s e.1 false; if r.2.poison then markLayerLine r.1 l.num e.2 else r.1) s

/-- The address of the first of a layer's lines that the armed flip mask takes (R414). -/
def flippedLine (s : State) (l : Layer) (p : Nat → Bool) : Option Nat :=
  if reg s K.FLIP_STATE ≠ 1 then none
  else (((List.range l.slots).map (fun i => yardAddr (slotOfIndex l.place i) (reg s K.FLIP_TARGET % 64))).filter (fun a =>
    match (slotIndex (a / 4096) l.place).bind (fun i => lineOfSlot l i (a / 64 % 64)) with
    | some n => p n && flipsBank s (bankAt a)
    | none => false)).head?

/-- The trough writes stored lines of a layer anew: their check bytes are clean, but for the one that the armed flip mask takes. -/
def rewriteLayer (s : State) (l : Layer) (p : Nat → Bool) : State :=
  let s := (layerMarks s l p).foldl (fun s e => { s with mem := putMark s.mem e.1 0 }) s
  match flippedLine s l p with
  | some a => flipFired { s with mem := putMark s.mem a (flipLine (strN s K.FLIP_MASK 68) { bytes := zeros 64, mark := 0 }).mark }
  | none => s

/-- The trough reads the stored lines of a run of elements that no mask leaves out, changes them with `f` and writes them. -/
def updateLines (s : State) (num first n : Nat) (f : State → State) : State :=
  match layerAt s num with
  | none => f s
  | some l =>
    let p := fun line => decide (first / 16 ≤ line ∧ line < ceilDiv (first + n) 16) && !maskedElem l (16 * line)
    rewriteLayer (f (scanLayer s l p)) l p

/-- The name and index of an element of a layer (R104). -/
def layerElem (l : Layer) (e : Nat) : Nat := elemIndex (l.first + e / 1024) (e % 1024)

/-- The final sum of an element (R164). -/
def finalSum (s : State) (l : Layer) (epoch e : Nat) (terms : SMap Part) : Word32 :=
  let c := { srCtx s l.part epoch l.tensor 0x01 (layerElem l e) with reference := l.reference }
  result c (treeOf c 0 ((List.range l.m).map (fun o => (smapGet terms o).getD (leaf 0))))

/-- Finalise a layer that becomes done, and hand it over (R171, R172). -/
def finaliseLayer (s : State) (num epoch : Nat) : State :=
  let s := match layerAt s num with | some l => scanLayer s l (fun _ => true) | none => s
  match layerAt s num with
  | none => s
  | some l =>
    let fs := l.terms.filterMap (fun e => let w := finalSum s l epoch e.1 e.2; if w = 0 then none else some (e.1, w))
    let nan := (fs.filter (fun e => isNan32 e.2)).length
    let s := rewriteLayer (putLayer s { l with state := 3, finals := fs, terms := [] }) l (fun _ => true)
    bump (if nan = 0 then s else bump s K.NAN_OUT_TRG nan) K.TRG_LAYERS_DONE 1

/-- An ordinal completes; the M-th makes a layer of the count trigger done (R171). -/
def ordinalEnded (s : State) (x : Stream) : State :=
  if x.mark ≠ 1 then s
  else
    match layerOf s x.d.part x.d.dst with
    | none => s
    | some l =>
      if l.state ≠ 1 ∨ l.ended.contains x.ordinal then s
      else
        let s := putLayer s { l with ended := x.ordinal :: l.ended }
        if !l.byDesc && decide (l.ended.length + 1 = l.m) then finaliseLayer s l.num x.epoch else s

/-- End an accumulating descriptor and its ordinal. -/
def endAcc (s : State) (x : Stream) (status detail : Nat) : State :=
  let s := endStream s x.id status detail
  ordinalEnded s x

/-- End it as a failing stream ends. -/
def failAcc (s : State) (x : Stream) (status detail : Nat) : State := endAcc s x status (failDetail s x.id status detail)

/-- What the checks of an accumulating descriptor come to: its layer, a status, or its turn has not come (R163, R176). -/
inductive AccCheck where
  | go (l : Layer)
  | wait
  | refuse (status detail : Nat)
  deriving DecidableEq, Repr

/-- The checks of an accumulating descriptor that covers `n` names from its trough name. -/
def accCheck (s : State) (x : Stream) (n : Nat) : AccCheck :=
  match layerOf s x.d.part x.d.dst with
  | none => .refuse 0x58 1
  | some l =>
    if l.first + l.tiles < x.d.dst + n then .refuse 0x58 2
    else if l.queue ≠ x.queue then .refuse 0x5B l.queue
    else if x.mark ≠ 1 then .refuse 0x5C (if l.state = 1 then 1 else 2)
    else if l.state ≠ 1 then .refuse 0x5C 2
    else if (List.range x.ordinal).all (fun o => l.ended.contains o) then .go l else .wait

/-- Tiles of the mask that a TRG_OPEN names (R165). -/
def maskTiles (d : Desc) : Nat := if d.arg.testBit 24 then ceilDiv (ceilDiv (1024 * d.count) (2 ^ bits d.arg 29 25)) 32768 else 0

/-- The checks of TRG_OPEN (R162, R176). -/
def openRefuses (s : State) (x : Stream) (slots : Nat) : Option (Nat × Nat) :=
  let num := bits x.d.arg 21 16
  match layerAt s num with
  | some l => some (0x59, l.part)
  | none =>
    match s.layers.find? (fun l => decide (l.part = x.d.part) && overlaps x.d.dst x.d.count l.first l.tiles) with
    | some l => some (0x5A, l.num)
    | none =>
      if reg s K.SST_TROUGH_TILES < slots then some (0x5E, slots)
      else if x.d.arg % 65536 = 0 ∨ (x.d.arg.testBit 24 ∧ (bits x.d.arg 29 25 < 4 ∨ 20 < bits x.d.arg 29 25)) then some (0x17, 0)
      else if !rangeOk x.d.dst x.d.count then some (0x18, 1)
      else none

/-- The FP32 words of a source tile of TRG_ACC (R161). -/
def accWords (d : Desc) (t : Tile) : List Word32 :=
  match fmtOfCode d.format with
  | some f => if d.format = 1 then words32 t.data else (elems d.format t.data).map (widen f)
  | none => []

/-- Add the words of one tile to a layer from element `base` (R163-R165). -/
def accTile (s : State) (num ord base : Nat) (ws : List Word32) : State :=
  match layerAt s num with
  | none => s
  | some l =>
    let es := (List.range ws.length).filter (fun i => !maskedElem l (base + i))
    let l' := es.foldl (fun l i => addTerm l ord (base + i) (leaf ((ws[i]?).getD 0))) l
    let s := bump (putLayer (if es = [] then s else laneChecks s stTRG) l') K.TRG_TERMS es.length
    if es.length = ws.length then s else bump s K.TRG_MASKED (ws.length - es.length)

/-- Mark the layer lines that the poisoned lines of a source tile of `n`-byte elements reach (R174). -/
def markLines (s : State) (num base n : Nat) (t : Tile) : State :=
  ((List.range 64).filter (tileBad t)).foldl (fun s j =>
    (rangeFrom ((base + j * (64 / n)) / 16) (4 / n)).foldl (fun s k => markLayerLine s num k) s) s

/-- Add tiles until one is awaited. -/
def accLoop (sid : Nat) : Nat → State → State
  | 0, s => s
  | fuel + 1, s =>
    match findStream s sid with
    | none => s
    | some x =>
      if x.pos = x.d.count then endAcc s x 0 0
      else
        match layerOf s x.d.part x.d.dst with
        | none => s
        | some l =>
          match nextSource s x with
          | (s, .wait) => s
          | (s, .fail a b) => failAcc s x a b
          | (s, .ok t) =>
            let n := tilesPer x.d.format
            let base := (x.d.dst - l.first + x.pos * n) * 1024
            let s := updateLines s l.num base (1024 * n) (fun s =>
              markLines (accTile s l.num x.ordinal base (accWords x.d t)) l.num base (elemSize x.d.format) t)
            accLoop sid fuel (markPoison (addDone (updStream s sid (fun y => { y with pos := y.pos + 1, inbox := y.inbox.drop 1 })) sid n) sid t)

/-- One row on its way to a layer (R166, R170): its row number from the descriptor's name, its token index, its words, and its
poisoned lines. -/
structure RowIn where
  row : Nat
  token : Nat
  words : List Word32
  bad : List Nat
  deriving DecidableEq, Repr

/-- The tree of R167 over a row's contributions: shaped by their order, its nodes named by token index. -/
def treeTok (c : SrCtx) : Nat → List (Nat × Part) → Part
  | 0, l => (l.headD (0, leaf 0)).2
  | fuel + 1, l =>
    if l.length ≤ 1 then (l.headD (0, leaf 0)).2
    else
      let h := 2 ^ (ceilLog2 l.length - 1)
      addNode c (ceilLog2 l.length) (l.headD (0, leaf 0)).1 (treeTok c fuel (l.take h)) (treeTok c fuel (l.drop h))

/-- The term that a row's contributions give one element (R167, R169). -/
def rowTerm (c : SrCtx) (unordered : Bool) (l : List (Nat × Word32)) : Part :=
  match l with
  | [] => leaf 0
  | [(_, w)] => leaf w
  | (_, w) :: rest => if unordered then leaf (rest.foldl (fun a x => fAdd .rne a x.2) w) else treeTok c 33 (l.map (fun x => (x.1, leaf x.2)))

/-- Add one row's contributions to a layer from element `base`. DEDUCED: log entry 31. -/
def addRow (s : State) (num ord base tensor epoch : Nat) (unordered : Bool) (cs : List RowIn) : State :=
  match layerAt s num, cs with
  | some l, c0 :: _ =>
    let n := c0.words.length
    let es := (List.range n).filter (fun i => !maskedElem l (base + i))
    let l' := es.foldl (fun l i =>
      let c := { srCtx s l.part epoch tensor 0x03 (layerElem l (base + i)) with reference := l.reference }
      addTerm l ord (base + i) (rowTerm c unordered (cs.map (fun r => (r.token, (r.words[i]?).getD 0))))) l
    let s := bump (putLayer (if es = [] then s else laneChecks s stTRG) l') K.TRG_TERMS (if unordered then es.length * cs.length else es.length)
    let s := if es.length = n then s else bump s K.TRG_MASKED ((n - es.length) * cs.length)
    let s := if cs.length ≤ 1 || unordered then s else bump s K.TRG_PRESUM_ROWS cs.length
    (cs.flatMap RowIn.bad).foldl (fun s j => markLayerLine s num (base / 16 + j)) s
  | _, _ => s

/-- Distinct row numbers in ascending order. -/
def rowNumbers (rows : List RowIn) : List Nat := (rows.foldl (fun m r => smapPut m r.row ()) ([] : SMap Unit)).map Prod.fst

/-- Add rows of `w` words each at their places, from element `off` of a layer (R166-R170). -/
def addRows (s : State) (num ord off w tensor epoch : Nat) (unordered : Bool) (rows : List RowIn) : State :=
  (rowNumbers rows).foldl (fun s r =>
    updateLines s num (off + r * w) w (fun s => addRow s num ord (off + r * w) tensor epoch unordered (rows.filter (fun x => decide (x.row = r))))) s

/-- Row r of a run of tiles, of 64 × 2^k bytes (R138): its bytes and its poisoned lines. -/
def rowOfTiles (ts : List Tile) (k r : Nat) : List Byte × List Nat :=
  let rpt := 64 / 2 ^ k
  match ts[r / rpt]? with
  | some t => (bytesAt t.data (r % rpt * 64 * 2 ^ k) (64 * 2 ^ k), (List.range (2 ^ k)).filter (fun j => tileBad t (r % rpt * 2 ^ k + j)))
  | none => (zeros (64 * 2 ^ k), [])

/-- The entries of a list of `n` indices in IDX32 tiles (R136). -/
def listEntries (ts : List Tile) (n : Nat) : List Nat := (ts.flatMap (fun t => elemsFrom 4 1024 t.data)).take n

/-- A line that holds one of the first `n` entries is poisoned. -/
def listBad (ts : List Tile) (n : Nat) : Bool := (List.range ts.length).any (fun i =>
  match ts[i]? with | some t => (List.range 64).any (fun j => tileBad t j && decide (i * 1024 + j * 16 < n)) | none => false)

/-- Every source tile of a descriptor, all or none: from EP once all have arrived, else by name at the source hop. -/
def readSources (s : State) (x : Stream) (n : Nat) : State × ListRead :=
  if srcHop x.d = stEP then (if n ≤ x.inbox.length then (s, .ok (x.inbox.take n)) else (s, .wait))
  else
    match (rangeFrom x.d.src n).findSome? (hopRefuses s x.d.part (srcHop x.d)) with
    | some st => (s, .fail st 0)
    | none => readNames s x (rangeFrom x.d.src n)

/-- A descriptor brought a row with a poisoned line (R153, R174). -/
def markRows (s : State) (x : Stream) (rows : List RowIn) : State :=
  if rows.any (fun r => decide (r.bad ≠ [])) then updStream s x.id (fun y => { y with poison := true }) else s

/-- The key under which a stream keeps a tile that it reads but once, wherever its home is. -/
def keepKey (n : Nat) : Nat := 2 ^ 60 + n

/-- Keep tiles with a stream to its end. -/
def keepTiles (s : State) (x : Stream) (l : List (Nat × Tile)) : State :=
  updStream s x.id (fun y => { y with fetched := l.foldl (fun m nt => smapPut m (keepKey nt.1) nt.2) y.fetched })

/-- A list of tiles that a stream keeps; none where it lacks one. -/
def keptTiles (s : State) (x : Stream) (names : List Nat) : Option (List Tile) :=
  match findStream s x.id with
  | some y =>
    let l := names.filterMap (fun n => smapGet y.fetched (keepKey n))
    if l.length = names.length then some l else none
  | none => none

/-- Sort contributions by the order in which they arrive (R169). -/
def byArrival (key : Nat → Nat) (rows : List RowIn) : List RowIn := rows.mergeSort (fun a b => decide (key a.token ≤ key b.token))

/-- Distinct numbers, ascending. -/
def distinct (l : List Nat) : List Nat := (l.foldl (fun m n => smapPut m n ()) ([] : SMap Unit)).map Prod.fst

/-- The hot rows of an index list, in ascending row number (R169): the wide path takes 32 of them in one read of the source. -/
def hotRows (threshold : Nat) (idx : List Nat) : List Nat :=
  (distinct idx).filter (fun r => decide (threshold < (idx.filter (fun x => decide (x = r))).length))

/-- An accumulating descriptor of a layer, accepted before stream `sid`, whose ordinal has not completed. -/
def ordinalBefore (s : State) (l : Layer) (sid : Nat) : Bool :=
  s.tracker.streams.any (fun y => y.taken && accumulates y.d && decide (y.mark = 1 ∧ y.id < sid ∧ y.d.part = l.part ∧ l.first ≤ y.d.dst ∧ y.d.dst < l.first + l.tiles) &&
    !l.ended.contains y.ordinal)

/-- Tile i of a final layer's sums (R171, R172, R174). -/
def finalTile (l : Layer) (i : Nat) : Tile :=
  let ws := (List.range 1024).map (fun e => (smapGet l.finals (1024 * i + e)).getD 0)
  mkTile (bytes32 ws) 1 1024 (maskOf ((List.range 64).filter (fun j => l.bad.contains (64 * i + j))))

/-- A station reads `n` tiles of the layer of a name, from the tile `off` past it on: the layer, with the lines marked that its stored lines show
bad (R174). -/
def readLayer (s : State) (q name off n : Nat) : State × Option Layer :=
  match layerOf s q name with
  | none => (s, none)
  | some l =>
    let s := if l.state ≠ 3 then s else scanLayer s l (fun line => decide (64 * (name - l.first + off) ≤ line ∧ line < 64 * (name - l.first + off + n)))
    (s, layerOf s q name)

/-- Deliver final sums until a store must wait (R46, R172). -/
def trgReadLoop (sid : Nat) : Nat → State → State
  | 0, s => s
  | fuel + 1, s =>
    match findStream s sid with
    | none => s
    | some x =>
      if x.pos = x.d.count then endStream s sid 0 0
      else
        match readLayer s x.d.part x.d.src x.pos 1 with
        | (s, none) => s
        | (s, some l) =>
          let m := convert x (finalTile l (x.d.src - l.first + x.pos))
          match deliverFrom x x.tilesDone m.first m.out s with
          | (s, .wait) => s
          | (s, .fail a b) => failStream s sid a b
          | (s, .ok) => trgReadLoop sid fuel (countNarrow (updStream s sid (fun y => { y with pos := y.pos + 1, pending := m.pending })) m.narrowed)

/-- A station reads a layer's sums: a TRG_READ or a TRW_UPDATE under way, or a reduction that holds it (R173). -/
def layerRead (s : State) (l : Layer) : Bool :=
  s.tracker.streams.any (fun y => y.taken && y.finish.isNone && decide (y.d.part = l.part) &&
    ((decide (y.d.opcode = 0x44) && (decide (0 < y.pos) || y.closing) && decide (l.first ≤ y.d.src ∧ y.d.src < l.first + l.tiles)) ||
     (decide (y.d.opcode = 0x61) && (decide (0 < y.pos) || y.closing) && overlaps y.d.aux y.d.count l.first l.tiles) ||
     (decide (y.d.opcode = 0x50) && (s.rdx.runs.any (fun r => decide (r.sid = y.id) && r.started)) && overlaps y.d.src y.d.count l.first l.tiles))) ||
  s.rdx.runs.any (fun r => r.left && r.layer.isNone && decide (r.part = l.part) && overlaps r.desc.src r.desc.count l.first l.tiles)

end Sys2Proof.Machine
end

