-- ==== Sys2Proof/Machine/Rdx.lean ====
section
/-! DEFINITION. Cross-chip reduction, all-gather and the global norm (R180-R202). -/
namespace Sys2Proof.Machine

/-- One send of R183's walk: the child `tree(loO, nO)` goes from rank `src` to `dst`, which computes `tree(lo, n)`. -/
structure Edge where
  lo : Nat
  n : Nat
  loO : Nat
  nO : Nat
  src : Nat
  dst : Nat
  deriving DecidableEq, Repr

/-- walk of R183. -/
def walkEdges : Nat → Nat → Nat → Nat → List Edge
  | 0, _, _, _ => []
  | fuel + 1, lo, n, c =>
    if n ≤ 1 then []
    else
      let h := 2 ^ (ceilLog2 n - 1)
      if c < lo + h then
        let co := lo + h + (c - lo) % (n - h)
        { lo := lo, n := n, loO := lo + h, nO := n - h, src := co, dst := c } :: (walkEdges fuel lo h c ++ walkEdges fuel (lo + h) (n - h) co)
      else
        let co := lo + (c - (lo + h)) % h
        { lo := lo, n := n, loO := lo, nO := h, src := co, dst := c } :: (walkEdges fuel (lo + h) (n - h) c ++ walkEdges fuel lo h co)

/-- The sends of shard `sh` in a group of `n`. -/
def shardEdges (n sh : Nat) : List Edge := walkEdges 13 0 n sh

/-- The sends that rank r receives for a shard, innermost node first, and the one it makes. -/
def edgesIn (n sh r : Nat) : List Edge := ((shardEdges n sh).filter (fun e => decide (e.dst = r))).reverse
def edgeOut (n sh r : Nat) : Option Edge := (shardEdges n sh).find? (fun e => decide (e.src = r))

/-- First tile of a shard (R182). -/
def shardLo (tiles n sh : Nat) : Nat := sh * tiles / n
def shardTiles (tiles n sh : Nat) : Nat := shardLo tiles n (sh + 1) - shardLo tiles n sh
def shardSegs (tiles n sh : Nat) : Nat := ceilDiv (shardTiles tiles n sh) 16
def segTiles (tiles n sh seg : Nat) : Nat := min 16 (shardTiles tiles n sh - 16 * seg)

/-- Group size, this block's rank, and the window of rank r (R181, R388). -/
def groupN (s : State) (q : Nat) : Nat := reg s (K.RG_SIZE q)
def groupRank (s : State) (q : Nat) : Nat := reg s (K.RG_RANK q)
def rankWindow (s : State) (q r : Nat) : Option Nat :=
  match structBytes s q (reg s (K.RG_TABLE q) % 2 ^ 48) (8 * r) 8 with
  | some b => if (leAt b 0 8).testBit 8 then some (leAt b 0 1) else none
  | none => none

/-- Send a reduction packet to rank r; without its entry it is not sent (R388). -/
def sendGroup (s : State) (q r : Nat) (p : Packet) (l : List Line) (w : Who) : State :=
  match rankWindow s q r with
  | some win => sendThrough s q win p l w
  | none => s

/-- Words 4 and 5 of a reduction packet (R320). -/
def rdxW4 (s : State) (q tag : Nat) : Word64 := BitVec.ofNat 64 (reg s (K.RG_GROUP_ID q) + tag * 2 ^ 32 + groupRank s q * 2 ^ 48)
def rdxPkt (s : State) (q type tag epoch : Nat) (w6 : Nat) : Packet := { pkt0 with type := type, w4 := rdxW4 s q tag, w5 := BitVec.ofNat 64 epoch, w6 := BitVec.ofNat 64 w6 }

/-- The mode of the global norm (R26). -/
def normMode (s : State) : Nat := if reg s K.RDX_MODE ≠ 1 ∧ reg s K.RDX_NORM_MODE = 1 then 2 else reg s K.RDX_NORM_MODE

/-- The epoch's clip factor, where its norm is closed (R194, R195). -/
def clipOf (s : State) (q epoch : Nat) : Option Clip :=
  if normMode s = 0 then some { part := q, epoch := epoch, value := 0x3F800000, poison := false }
  else s.rdx.clips.find? (fun c => decide (c.part = q ∧ c.epoch = epoch))

def findRun (s : State) (sid : Nat) : Option RdxRun := s.rdx.runs.find? (fun r => decide (r.sid = sid))
def putRun (s : State) (r : RdxRun) : State := { s with rdx := { s.rdx with runs := s.rdx.runs.map (fun x => if x.sid = r.sid then r else x) } }

/-- Give free slots of a partition to its runs in acceptance order (R187). -/
def giveSlots (s : State) (q : Nat) : State :=
  (s.rdx.runs.map RdxRun.sid).foldl (fun s i =>
    match findRun s i with
    | none => s
    | some r =>
      if r.part = q ∧ r.slotted = false ∧ r.left = false ∧ (s.rdx.runs.filter (fun x => decide (x.part = q) && x.slotted)).length < 16 then putRun s { r with slotted := true } else s) s

/-- A run of a descriptor, before anything is done of it. -/
def newRun (x : Stream) : RdxRun :=
  { sid := x.id, part := x.d.part, op := x.d.opcode, tag := x.d.arg % 65536, epoch := x.epoch, slotted := false, started := false, asked := false,
    credit := [], parts := [], shardsIn := [], sentTiles := 0, sent := [], norms := [], desc := x.d, layer := none, ended := false, left := false }

/-- A descriptor accepted for RDX takes a slot, or waits for one (R187). -/
def rdxAccept (s : State) (x : Stream) : State := giveSlots { s with rdx := { s.rdx with runs := s.rdx.runs ++ [newRun x] } } x.d.part

/-- The agent a run's work is charged to. -/
def whoRun (r : RdxRun) : Who := { part := r.part, cls := r.desc.cls, deadline := r.desc.deadline }

/-- Remove a run and give its slot on. -/
def dropRun (s : State) (sid q : Nat) : State := giveSlots { s with rdx := { s.rdx with runs := s.rdx.runs.filter (fun r => decide (r.sid ≠ sid)) } } q

/-- The ranks that a run's links join to this block (R198). -/
def runLinks (s : State) (r : RdxRun) : List Nat :=
  let n := groupN s r.part
  let me := groupRank s r.part
  if r.op = 0x51 then []
  else if r.op = 0x53 then (List.range n).filter (fun k => decide (k ≠ me))
  else distinct ((List.range n).flatMap (fun sh => (shardEdges n sh).filterMap (fun e => if e.src = me then some e.dst else if e.dst = me then some e.src else none)))

/-- Send abandon notices on every link of a run (R198). -/
def sendAbandons (s : State) (r : RdxRun) (w : Who) : State :=
  (runLinks s r).foldl (fun s k => sendGroup s r.part k (rdxPkt s r.part 0x23 r.tag r.epoch 0) [] w) s

/-- What a run holds once its stream has finished: no slot, and nothing at all where nothing of it is left to send (R187, R188). -/
def settleRun (s : State) (sid : Nat) : State :=
  match findRun s sid with
  | none => s
  | some r =>
    let fin := match findStream s sid with | some y => y.finish.isSome | none => true
    if !fin then s
    else if r.ended || (r.left && r.layer.isSome) then dropRun s sid r.part
    else if r.left && r.slotted then giveSlots (putRun s { r with slotted := false }) r.part
    else s

/-- Settle every run. -/
def rdxSettle (s : State) : State := (s.rdx.runs.map RdxRun.sid).foldl settleRun s

/-- End a run's stream: other than by COMPLETED, with notices on every link, but for a partition without a group and for a tag that is another
descriptor's (R198). DEDUCED: log entry 33. -/
def rdxEnd (s : State) (sid status detail : Nat) : State :=
  match findStream s sid with
  | none => s
  | some x =>
    if x.closing || x.finish.isSome then s
    else
      let r := (findRun s sid).getD (newRun x)
      let s := if status = 0 ∨ status = 0x60 ∨ status = 0x62 then s else sendAbandons s r (whoRun r)
      settleRun (endStream (putRun s { r with ended := true }) sid status detail) sid

/-- A partial of a segment: its elements, and its poisoned lines of 16 elements (R183, R197). -/
structure SegVal where
  elems : List Part
  bad : List Nat
  deriving DecidableEq, Repr

/-- The leaf of this rank: the layer's final sums (R183). -/
def leafSeg (l : Layer) (first tiles : Nat) : SegVal :=
  { elems := (List.range (1024 * tiles)).map (fun i => leaf ((smapGet l.finals (1024 * first + i)).getD 0)),
    bad := (List.range (64 * tiles)).filter (fun j => l.bad.contains (64 * first + j)) }

/-- Partials as bytes: the sum, and in the reference mode its pair (s, c) (R196). -/
def partBytes (reference : Bool) (es : List Part) : List Byte :=
  es.flatMap (fun p => natLe 4 p.s.toNat ++ (if reference then natLe 4 p.c.toNat else []))

/-- The node addition of R183: the lower-indexed child first; a masked element stays +0 (R189). -/
def addSeg (s : State) (r : RdxRun) (l : Layer) (first : Nat) (e : Edge) (low high : SegVal) : State × SegVal :=
  let sums := (List.range low.elems.length).map (fun i =>
    let g := 1024 * first + i
    if maskedElem l g then leaf 0
    else
      addNode (srCtx s r.part r.epoch l.tensor 0x02 (layerElem l g)) (ceilLog2 e.n) e.lo ((low.elems[i]?).getD (leaf 0)) ((high.elems[i]?).getD (leaf 0)))
  let n := ((List.range low.elems.length).filter (fun i => !maskedElem l (1024 * first + i))).length
  let bad := distinct (low.bad ++ high.bad)
  let s := bump s K.RDX_ADDS n
  if reg s K.RDX_MODE = 2 then
    let pairs := refMode s r.part r.epoch
    let size := if pairs then 8 else 4
    let h := hostWork s (whoRun r) [partBytes pairs low.elems, partBytes pairs high.elems] (size * low.elems.length)
    (h.1, { elems := (List.range low.elems.length).map (fun i =>
              { s := BitVec.ofNat 32 (leAt h.2 (size * i) 4), c := if pairs then BitVec.ofNat 32 (leAt h.2 (8 * i + 4) 4) else 0 }), bad := bad })
  else (laneChecks s stRDX, { elems := sums, bad := bad })

/-- A segment as payload lines: masked lines are omitted, pairs go as (s, c) (R189, R196, R197). -/
def segLines (pairs : Bool) (l : Layer) (first : Nat) (v : SegVal) : List Line :=
  ((List.range (v.elems.length / 16)).filter (fun j => !maskedElem l (1024 * first + 16 * j))).flatMap (fun j =>
    let es := (v.elems.drop (16 * j)).take 16
    (asLines (partBytes pairs es)).map (fun (ln : Line) => carried ln.bytes (v.bad.contains j)))

/-- A segment from payload lines. -/
def segOfLines (pairs : Bool) (l : Layer) (first tiles : Nat) (ls : List Line) : SegVal :=
  let size := if pairs then 128 else 64
  let live := (List.range (64 * tiles)).filter (fun j => !maskedElem l (1024 * first + 16 * j))
  let data := lineData ls
  let bads := lineBad ls
  { elems := (List.range (64 * tiles)).flatMap (fun j =>
      if live.contains j then
        let o := live.idxOf j * size
        (List.range 16).map (fun i =>
          if pairs then { s := BitVec.ofNat 32 (leAt data (o + 8 * i) 4), c := BitVec.ofNat 32 (leAt data (o + 8 * i + 4) 4) : Part }
          else leaf (BitVec.ofNat 32 (leAt data (o + 4 * i) 4)))
      else List.replicate 16 (leaf 0)),
    bad := live.filter (fun j => (rangeFrom (live.idxOf j * (size / 64)) (size / 64)).any (fun k => bads.contains k)) }

def findPart (r : RdxRun) (sh first level seg : Nat) : Option RdxPart :=
  r.parts.find? (fun p => decide (p.shard = sh ∧ p.first = first ∧ p.level = level ∧ p.seg = seg))
def dropPart (r : RdxRun) (sh first level seg : Nat) : RdxRun :=
  { r with parts := r.parts.filter (fun p => decide (¬ (p.shard = sh ∧ p.first = first ∧ p.level = level ∧ p.seg = seg))) }

/-- Return one credit to a child (R190). -/
def giveCredit (s : State) (r : RdxRun) (child sh n : Nat) (w : Who) : State :=
  sendGroup s r.part child (rdxPkt s r.part 0x22 r.tag r.epoch (n % 256 + sh * 2 ^ 40)) [] w

/-- What a chain of nodes of a segment has come to: complete, or waiting for a child. -/
inductive Chain where
  | ready (v : SegVal)
  | waits
  deriving DecidableEq, Repr

/-- Add the children that are present along this rank's chain of nodes (R183, R190). -/
def chainSeg (l : Layer) (sh seg first : Nat) : List Edge → SegVal → State → RdxRun → State × RdxRun × Chain
  | [], v, s, r => (s, r, .ready v)
  | e :: rest, v, s, r =>
    let lvl := ceilLog2 e.n
    match findPart r sh e.lo lvl seg with
    | some p => chainSeg l sh seg first rest { elems := p.elems, bad := p.bad } s r
    | none =>
      match findPart r sh e.loO (ceilLog2 e.nO) seg with
      | none => (s, r, .waits)
      | some p =>
        let o : SegVal := { elems := p.elems, bad := p.bad }
        let a := if e.loO = e.lo then addSeg s r l first e o v else addSeg s r l first e v o
        let r := dropPart r sh e.loO (ceilLog2 e.nO) seg
        let r := { r with parts := { shard := sh, first := e.lo, level := lvl, seg := seg, elems := a.2.elems, bad := a.2.bad } :: r.parts }
        chainSeg l sh seg first rest a.2 (giveCredit a.1 r e.src sh 1 (whoRun r)) r

/-- Credits held towards a rank, whichever shards they are spent on (R190, R201). -/
def creditOf (r : RdxRun) (k : Nat) : Nat := (smapGet r.credit k).getD 0
def addCredit (r : RdxRun) (k n : Nat) : RdxRun := { r with credit := smapPut r.credit k (creditOf r k + n) }
def useCredit (r : RdxRun) (k : Nat) : RdxRun := { r with credit := smapPut r.credit k (creditOf r k - 1) }

/-- Number of a segment over all shards. -/
def segKey (sh seg : Nat) : Nat := sh * 65536 + seg

/-- Send a segment's payload to a rank against one credit (R190). -/
def sendSeg (s : State) (r : RdxRun) (sh seg k tiles first level : Nat) (ls : List Line) (w : Who) : State × RdxRun :=
  let s := bump s K.RDX_BYTES_SENT (64 * ls.length)
  let w6 := seg % 2 ^ 32 + level * 2 ^ 32 + sh * 2 ^ 40 + first * 2 ^ 52
  (sendGroup s r.part k (rdxPkt s r.part 0x21 r.tag r.epoch w6) ls w, { useCredit r k with sent := (segKey sh seg, k) :: r.sent, sentTiles := r.sentTiles + tiles })

/-- Work on one segment of a reduction: add what is present, and send what is complete (R190). -/
def driveSeg (l : Layer) (n me sh seg : Nat) (s : State) (r : RdxRun) : State × RdxRun :=
  let lo := shardLo l.tiles n sh
  let tiles := segTiles l.tiles n sh seg
  match edgeOut n sh me with
  | some out =>
    if r.sent.contains (segKey sh seg, out.dst) then (s, r)
    else
      match chainSeg l sh seg (lo + 16 * seg) (edgesIn n sh me) (leafSeg l (lo + 16 * seg) tiles) s r with
      | (s, r, .waits) => (s, r)
      | (s, r, .ready v) =>
        if creditOf r out.dst = 0 ∨ (0 < seg ∧ !r.sent.contains (segKey sh (seg - 1), out.dst)) then (s, r)
        else
          let r := dropPart r sh out.loO (ceilLog2 out.nO) seg
          sendSeg s r sh seg out.dst tiles out.loO (ceilLog2 out.nO) (segLines (refMode s r.part r.epoch) l (lo + 16 * seg) v) (whoRun r)
  | none =>
    let c := chainSeg l sh seg (lo + 16 * seg) (edgesIn n sh me) (leafSeg l (lo + 16 * seg) tiles) s r
    (c.1, c.2.1)

/-- The levels of a segment's nodes at which this rank holds one operand and not the other (R191): `mine`, its own is here. -/
def chainWaits (r : RdxRun) (sh seg : Nat) : List Edge → Bool → List Nat
  | [], _ => []
  | e :: rest, mine =>
    if (findPart r sh e.lo (ceilLog2 e.n) seg).isSome then chainWaits r sh seg rest true
    else
      let other := (findPart r sh e.loO (ceilLog2 e.nO) seg).isSome
      (if other ≠ mine then [ceilLog2 e.n] else []) ++ chainWaits r sh seg rest false

/-- Every node of a segment's chain at this rank is formed. -/
def chainDone (r : RdxRun) (sh seg : Nat) (es : List Edge) : Bool := es.all (fun e => (findPart r sh e.lo (ceilLog2 e.n) seg).isSome)

/-- The levels at which reduction or gather `r` holds one operand of a segment and waits for the other, and those at which a finished segment waits
for a credit (R191). DEDUCED: log entry 33. -/
def runWaits (s : State) (r : RdxRun) : List Nat × List Nat :=
  let n := groupN s r.part
  let me := groupRank s r.part
  let segs := (List.range n).flatMap (fun sh => (List.range (shardSegs r.desc.count n sh)).map (fun g => (sh, g)))
  if !r.started || r.ended then ([], [])
  else if r.op = 0x50 then
    let sent (sg : Nat × Nat) : Bool := r.sent.any (fun k => decide (k.1 = segKey sg.1 sg.2))
    (segs.flatMap (fun sg => if sent sg then [] else chainWaits r sg.1 sg.2 (edgesIn n sg.1 me) r.asked),
     segs.filterMap (fun sg => if sent sg ∨ r.asked = false ∨ chainDone r sg.1 sg.2 (edgesIn n sg.1 me) = false then none else
       match edgeOut n sg.1 me with
       | some out => if creditOf r out.dst = 0 then some (ceilLog2 out.n) else none
       | none => none))
  else if r.op = 0x52 then
    ([], segs.flatMap (fun sg => if !smapHas r.shardsIn (segKey sg.1 sg.2) then [] else
      (edgesIn n sg.1 me).filterMap (fun e => if r.sent.contains (segKey sg.1 sg.2, e.src) ∨ creditOf r e.src ≠ 0 then none else some (ceilLog2 e.n))))
  else ([], [])

/-- Send this rank's RDX_OPENs: opcode, norm bit, tile count, first name, mask CRC, arithmetic mode and group size (R186). DESIGN CHOICE: log entry 34. -/
def openBytes (s : State) (x : Stream) : List Byte :=
  let mask := match layerOf s x.d.part x.d.src with
    | some l => if (x.d.opcode = 0x50 ∨ x.d.opcode = 0x51) ∧ l.unit.isSome then crc32c l.mask else 0
    | none => 0
  natLe 1 x.d.opcode ++ natLe 1 (b2n (x.d.arg.testBit 16)) ++ zeros 2 ++ natLe 4 x.d.count ++ natLe 8 x.d.src ++ natLe 4 mask ++
  natLe 4 (b2n (refMode s x.d.part x.epoch)) ++ natLe 4 (groupN s x.d.part) ++ zeros 36

/-- The first item in which two RDX_OPENs differ (R186). -/
def openDiffers (a b : List Byte) : Option Nat :=
  if leAt a 0 1 ≠ leAt b 0 1 then some 1 else if leAt a 4 4 ≠ leAt b 4 4 then some 2 else if leAt a 8 8 ≠ leAt b 8 8 then some 3
  else if leAt a 16 4 ≠ leAt b 16 4 then some 4 else if leAt a 20 4 ≠ leAt b 20 4 then some 5 else if leAt a 24 4 ≠ leAt b 24 4 then some 6
  else if leAt a 1 1 ≠ leAt b 1 1 then some 7 else none

/-- The ranks to which a run sends: parents in a reduction, children in a gather, all in a norm. -/
def runTargets (s : State) (r : RdxRun) : List Nat :=
  let n := groupN s r.part
  let me := groupRank s r.part
  if r.op = 0x53 then (List.range n).filter (fun k => decide (k ≠ me))
  else distinct ((List.range n).flatMap (fun sh => (shardEdges n sh).filterMap (fun e =>
    if r.op = 0x50 then (if e.src = me then some e.dst else none) else if e.dst = me then some e.src else none)))

def sendOpens (s : State) (x : Stream) (r : RdxRun) : State :=
  (runTargets s r).foldl (fun s k => sendGroup s r.part k (rdxPkt s r.part 0x20 r.tag r.epoch 0) (asLines (openBytes s x)) (whoOf x)) s

/-- The square of R193, rounded to nearest even. -/
def square (x : Word32) : Part := leaf (fMul .rne x x)

/-- Stage A of a fold (R193, R195): the sum of squares of words whose first tile is `name`. -/
def stageA (s : State) (x : Stream) (l : Layer) (name : Nat) (ws : List Word32) : State × Part :=
  if normMode s = 2 then
    let h := hostWork s (whoOf x) [bytes32 ws] 4
    (h.1, leaf (BitVec.ofNat 32 (leAt h.2 0 4)))
  else
    (laneChecks s stRDX, treeOf (srCtx s x.d.part x.epoch l.tensor 0x05 (name * 1024)) 0 (ws.map square))

/-- Keep a fold for the epoch's norm. -/
def addFold (s : State) (f : Fold) : State := { s with rdx := { s.rdx with folds := s.rdx.folds ++ [f] } }

/-- The reduced shard's tile i, from the root's partials (R188, R189, R196). -/
def rootTile (s : State) (r : RdxRun) (l : Layer) (ps : List RdxPart) (lo i : Nat) : Tile :=
  match ps.find? (fun p => decide (p.seg = i / 16)) with
  | none => zeroTile 1
  | some p =>
    let ws := ((p.elems.drop (1024 * (i % 16))).take 1024).map (result (srCtx s r.part r.epoch l.tensor 0x02 0))
    let ws := (List.range 1024).map (fun e => if maskedElem l (1024 * (lo + i) + e) then 0 else (ws[e]?).getD 0)
    mkTile (bytes32 ws) 1 1024 (maskOf ((List.range 64).filter (fun j => p.bad.contains (64 * (i % 16) + j))))

/-- The root partials of this rank's shard. -/
def rootParts (r : RdxRun) (n me : Nat) : List RdxPart := r.parts.filter (fun p => decide (p.shard = me ∧ p.first = 0 ∧ p.level = ceilLog2 n))

/-- Write the reduced shard tile by tile, for as long as no store must wait. -/
def writeShard (x : Stream) (r : RdxRun) (l : Layer) (ps : List RdxPart) (lo : Nat) : Nat → Nat → State → State × NameWrite
  | 0, _, s => (s, .ok)
  | fuel + 1, i, s =>
    let t := rootTile s r l ps lo i
    match writeHop s x (sinkHop x.d) (x.d.dst + i) t with
    | (s, .ok) =>
      let nan := ((words32 t.data).filter isNan32).length
      let s := if nan = 0 then s else bump s K.NAN_OUT_RDX nan
      writeShard x r l ps lo fuel (i + 1) (addDone (markPoison s x.id t) x.id 1)
    | w => w

/-- Every segment of other ranks' shards has been sent, and every final sum of this rank's shard used (R188). -/
def sumsUsed (r : RdxRun) (tiles n me : Nat) : Bool :=
  decide (shardSegs tiles n me ≤ (rootParts r n me).length) &&
    (List.range n).all (fun sh => decide (sh = me) || (List.range (shardSegs tiles n sh)).all (fun g => r.sent.any (fun k => decide (k.1 = segKey sh g))))

/-- Complete an RDX_REDUCE whose shard is written (R188, R193): what it has not yet sent goes out after it. -/
def finishReduce (s : State) (x : Stream) (r : RdxRun) (l : Layer) (n me : Nat) : State :=
  let lo := shardLo l.tiles n me
  let ts := (List.range (shardTiles l.tiles n me)).map (rootTile s r l (rootParts r n me) lo)
  let s := if x.d.arg.testBit 16 && decide (normMode s ≠ 0) then
      let a := stageA s x l (l.first + lo) (ts.flatMap (fun t => words32 t.data))
      addFold a.1 { part := x.d.part, epoch := x.epoch, tag := r.tag, sum := a.2, poison := ts.any (fun t => decide (t.info.poison ≠ 0)) }
    else s
  settleRun (endStream (putRun s { r with left := true }) x.id 0 r.sentTiles) x.id

/-- Write what is left of a reduction's shard, once its partials are all here, and complete it (R188). -/
def writeReduced (s : State) (x : Stream) (r : RdxRun) (l : Layer) (n me : Nat) : State :=
  if (rootParts r n me).length < shardSegs l.tiles n me then s
  else
    match writeShard x r l (rootParts r n me) (shardLo l.tiles n me) (shardTiles l.tiles n me - x.tilesDone) x.tilesDone s with
    | (s, .wait) => s
    | (s, .fail a b) => rdxEnd s x.id a (failDetail s x.id a b)
    | (s, .ok) => finishReduce s x r l n me

/-- Add and send what a reduction can of its layer, and release the layer once every sum is sent or used (R188, R190). -/
def sendReduced (s : State) (r : RdxRun) (l : Layer) (n me : Nat) : State × RdxRun :=
  let segs := (List.range n).flatMap (fun sh => (List.range (shardSegs l.tiles n sh)).map (fun g => (sh, g)))
  match segs.foldl (fun (sr : State × RdxRun) sg => driveSeg l n me sg.1 sg.2 sr.1 sr.2) (s, r) with
  | (s, r) =>
    if sumsUsed r l.tiles n me then
      let r := { r with layer := some { l with terms := [], finals := [] } }
      (freeLayer (putRun s r) l.num, r)
    else (putRun s r, r)

/-- Drive a reduction (R187-R190): `live` is its stream, where that has not its status yet. DEDUCED: log entry 33. -/
def driveReduce (s : State) (live : Option Stream) (r : RdxRun) : State :=
  let n := groupN s r.part
  let me := groupRank s r.part
  match r.layer with
  | some l => (match live with | some x => writeReduced s x r l n me | none => s)
  | none =>
    match readLayer s r.part r.desc.src 0 r.desc.count with
    | (s, none) => s
    | (s, some l) =>
      if l.state ≠ 3 then s
      else
        let s := if r.asked then s else (match live with | some x => sendOpens s x r | none => s)
        match sendReduced s { r with asked := true } l n me with
        | (s, r) => (match live with | some x => writeReduced s x r l n me | none => settleRun s r.sid)

/-- The tiles of a gathered segment, if it is here. -/
def gatherSeg (r : RdxRun) (sh seg : Nat) : Option (List Tile) := smapGet r.shardsIn (segKey sh seg)

/-- Forward one gathered segment down the reversed tree (R184). -/
def forwardSeg (x : Stream) (n me sh seg : Nat) (s : State) (r : RdxRun) : State × RdxRun :=
  match gatherSeg r sh seg with
  | none => (s, r)
  | some ts =>
    (edgesIn n sh me).foldl (fun (sr : State × RdxRun) e =>
      let s := sr.1
      let r := sr.2
      if r.sent.contains (segKey sh seg, e.src) ∨ creditOf r e.src = 0 ∨ (0 < seg ∧ !r.sent.contains (segKey sh (seg - 1), e.src)) then (s, r)
      else sendSeg s r sh seg e.src ts.length e.loO (ceilLog2 e.nO) (ts.flatMap tileLines) (whoOf x)) (s, r)

/-- Deliver gathered tiles in ascending order for as long as they are here. -/
def deliverGather (x : Stream) (r : RdxRun) (n : Nat) : Nat → Nat → State → State × NameWrite
  | 0, _, s => (s, .ok)
  | fuel + 1, i, s =>
    let sh := ((List.range n).find? (fun k => decide (i < shardLo x.d.count n (k + 1)))).getD 0
    let o := i - shardLo x.d.count n sh
    match gatherSeg r sh (o / 16) with
    | none => (s, .ok)
    | some ts =>
      match deliver s x i ((ts[o % 16]?).getD (zeroTile x.d.format)) with
      | (s, .ok) => deliverGather x r n fuel (i + 1) s
      | w => w

/-- Drive a gather (R184, R190). -/
def driveGather (s : State) (x : Stream) (r : RdxRun) : State :=
  let n := groupN s x.d.part
  let me := groupRank s x.d.part
  let own := shardTiles x.d.count n me
  let read : State × ListRead := if r.asked then (s, .ok []) else
    match (rangeFrom x.d.src own).findSome? (hopRefuses s x.d.part (srcHop x.d)) with
    | some st => (s, .fail st 0)
    | none => readNames s x (rangeFrom x.d.src own)
  match read with
  | (s, .wait) => s
  | (s, .fail a b) => rdxEnd s x.id a (failDetail s x.id a b)
  | (s, .ok ts) =>
    let s := if r.asked then s else sendOpens s x r
    let r := if r.asked then r
      else { r with asked := true, shardsIn := (List.range (shardSegs x.d.count n me)).foldl (fun m g => smapPut m (segKey me g) ((ts.drop (16 * g)).take 16)) r.shardsIn }
    let segs := (List.range n).flatMap (fun sh => (List.range (shardSegs x.d.count n sh)).map (fun g => (sh, g)))
    let sr := segs.foldl (fun (sr : State × RdxRun) sg => forwardSeg x n me sg.1 sg.2 sr.1 sr.2) (s, r)
    let s := putRun sr.1 sr.2
    let r := sr.2
    let done := match findStream s x.id with | some y => y.tilesDone | none => 0
    match deliverGather x r n (x.d.count - done) done s with
    | (s, .wait) => s
    | (s, .fail a b) => rdxEnd s x.id a (failDetail s x.id a b)
    | (s, .ok) =>
      let done := match findStream s x.id with | some y => y.tilesDone | none => 0
      let sentAll := segs.all (fun sg => (edgesIn n sg.1 me).all (fun e => r.sent.contains (segKey sg.1 sg.2, e.src)))
      if done = x.d.count ∧ sentAll then rdxEnd s x.id 0 0 else s

/-- A fold accepted before a norm in its epoch has not completed (R194). -/
def foldsPending (s : State) (x : Stream) : Bool :=
  s.tracker.streams.any (fun y => y.taken && y.finish.isNone && decide (y.id < x.id ∧ y.d.part = x.d.part ∧ y.epoch = x.epoch) &&
    (decide (y.d.opcode = 0x51) || (decide (y.d.opcode = 0x50) && y.d.arg.testBit 16)))

/-- Stage B of the norm (R193). -/
def stageB (s : State) (x : Stream) : Part × Bool :=
  let fs := (s.rdx.folds.filter (fun f => decide (f.part = x.d.part ∧ f.epoch = x.epoch))).mergeSort (fun a b => decide (a.tag ≤ b.tag))
  let c := srCtx s x.d.part x.epoch (groupRank s x.d.part) 0x05 (nullName * 1024 + 1)
  (treeOf c 0 (fs.map Fold.sum), fs.any Fold.poison)

/-- The clip factor (R194). -/
def clipFactor (maxNorm norm : Word32) : Word32 :=
  if isNan32 norm then BitVec.ofNat 32 (canonNan fmtFP32)
  else if fLt maxNorm norm then fDiv .rne maxNorm norm
  else 0x3F800000

/-- The norm's results from all partials (R194, R197). -/
def finishNorm (s : State) (x : Stream) (own : Part) (ps : List (Nat × Part × Bool)) : State :=
  let q := x.d.part
  let c := srCtx s q x.epoch 0 0x05 (nullName * 1024 + 2)
  let all := (List.range (groupN s q)).map (fun k => match ps.find? (fun p => decide (p.1 = k)) with | some p => p.2.1 | none => leaf 0)
  let total := result c (treeOf c 0 all)
  let norm := fSqrt .rne total
  let clip := clipFactor (BitVec.ofNat 32 (x.d.scalar % 2 ^ 32)) norm
  let bad := ps.any (fun p => p.2.2)
  let t := mkTile (bytes32 [norm, clip, total, result c own] ++ zeros 4080) 1 4 (if bad then 1 else 0)
  match deliver s x 0 t with
  | (s, .wait) => s
  | (s, .fail a b) => rdxEnd s x.id a (failDetail s x.id a b)
  | (s, .ok) =>
    let s := { s with rdx := { s.rdx with clips := { part := q, epoch := x.epoch, value := clip, poison := bad } :: s.rdx.clips } }
    let s := setRegs s [(K.RDX_NORM_VALUE q, norm.toNat), (K.RDX_CLIP q, clip.toNat)]
    let s := if isNan32 norm then raise (bump s K.NAN_OUT_RDX 1) 0x03 stRDX 0 (some q) false 0 else s
    rdxEnd s x.id 0 0

/-- Close the folds and exchange the block partials (R194): this rank's own is kept as it was sent. Bit 48 of word 5 carries the poison of a
partial. DESIGN CHOICE: log entry 34. -/
def openNorm (s : State) (x : Stream) (r : RdxRun) : State × RdxRun :=
  let q := x.d.part
  let me := groupRank s q
  let b := stageB s x
  let s := (runTargets s r).foldl (fun s k =>
    sendGroup s q k { rdxPkt s q 0x24 r.tag (r.epoch + b2n b.2 * 2 ^ 48) 0 with w6 := BitVec.ofNat 64 (b.1.s.toNat + b.1.c.toNat * 2 ^ 32) } [] (whoOf x)) (sendOpens s x r)
  let r := { r with asked := true, norms := (me, b.1, b.2) :: r.norms.filter (fun p => decide (p.1 ≠ me)) }
  (putRun s r, r)

/-- Drive a norm: exchange the block partials, then finish (R194). -/
def driveNorm (s : State) (x : Stream) (r : RdxRun) : State :=
  if !r.asked && foldsPending s x then s
  else
    match (if r.asked then (s, r) else openNorm s x r) with
    | (s, r) =>
      if (List.range (groupN s x.d.part)).all (fun k => r.norms.any (fun p => decide (p.1 = k))) then
        finishNorm s x (match r.norms.find? (fun p => decide (p.1 = groupRank s x.d.part)) with | some p => p.2.1 | none => leaf 0) r.norms
      else s

/-- Fold a local layer into the norm (R184, R193). -/
def driveLocal (s : State) (x : Stream) (r : RdxRun) : State :=
  match readLayer s x.d.part x.d.src 0 x.d.count with
  | (s, none) => s
  | (s, some l) =>
    if l.state ≠ 3 then s
    else
      let ws := (List.range (1024 * l.tiles)).map (fun i => (smapGet l.finals i).getD 0)
      let a := stageA s x l l.first ws
      rdxEnd (addFold a.1 { part := x.d.part, epoch := x.epoch, tag := r.tag, sum := a.2, poison := decide (l.bad ≠ []) }) x.id 0 0

/-- Drive whatever a stream's run is. -/
def rdxDrive (s : State) (sid : Nat) : State :=
  match findRun s sid, findStream s sid with
  | some r, some x =>
    if r.left then driveReduce s none r
    else if r.slotted && r.started && x.finish.isNone && !x.closing then
      if r.op = 0x50 then driveReduce s (some x) r else if r.op = 0x51 then driveLocal s x r else if r.op = 0x52 then driveGather s x r else driveNorm s x r
    else s
  | some r, none => if r.left then driveReduce s none r else s
  | none, _ => s

/-- A reduction or fold in its slot starts at the moment its layer becomes final (R187). -/
def rdxWake (s : State) : State :=
  ((s.rdx.runs.filter (fun r => decide (r.op ≤ 0x51) && !r.asked)).map RdxRun.sid).foldl rdxDrive s

/-- The checks of R185, in its order. -/
def rdxRefuses (s : State) (x : Stream) : Option (Nat × Nat) :=
  let q := x.d.part
  let tag := x.d.arg % 65536
  let layered := decide (x.d.opcode = 0x50 ∨ x.d.opcode = 0x51)
  let layer := match layerOf s q x.d.src with | some l => if l.first = x.d.src then some l else none | none => none
  let wrong := if layered then
      match layer with
      | none => some (0x61, 1)
      | some l => if l.isLocal ≠ decide (x.d.opcode = 0x51) then some (0x61, 2) else if l.tiles ≠ x.d.count then some (0x61, 3) else none
    else none
  if reg s (K.RG_STATE q) ≠ 1 then some (0x60, 0)
  else
    match wrong with
    | some w => some w
    | none =>
      let max' := BitVec.ofNat 32 (x.d.scalar % 2 ^ 32)
      if s.rdx.tags.contains (q, tag) then some (0x62, tag)
      else if (decide (x.d.opcode = 0x51 ∨ x.d.opcode = 0x53) || (decide (x.d.opcode = 0x50) && x.d.arg.testBit 16 && decide (normMode s ≠ 0))) && (clipOf s q x.epoch).isSome then some (0x66, 0)
      else if x.d.opcode = 0x53 ∧ !fLt 0 max' then some (0x65, 0)
      else none

/-- Fields of a reduction packet (R320). -/
def rdxTag (p : Packet) : Nat := bits p.w4.toNat 47 32
def rdxRank (p : Packet) : Nat := bits p.w4.toNat 59 48
def rdxEpoch (p : Packet) : Nat := p.w5.toNat % 2 ^ 48

/-- The run that a packet names, once its checks are passed: that of its epoch, where there is one. -/
def runOf (s : State) (q tag epoch : Nat) : Option RdxRun :=
  let l := s.rdx.runs.filter (fun r => decide (r.part = q ∧ r.tag = tag) && (r.slotted || r.left) && r.started && !r.ended)
  (l.find? (fun r => decide (r.epoch = epoch))).or l.head?

/-- Rank k sends to this rank in some shard. -/
def sendsHere (s : State) (r : RdxRun) (k : Nat) : Bool :=
  let n := groupN s r.part
  let me := groupRank s r.part
  (List.range n).any (fun sh =>
    (shardEdges n sh).any (fun e => if r.op = 0x50 then decide (e.src = k ∧ e.dst = me) else decide (e.dst = k ∧ e.src = me)))

/-- Grant a child its credits, once for the reduction (R190, R201). The packet's shard field is zero, since the grant is of no shard. DESIGN
CHOICE: log entry 34. -/
def grantCredits (s : State) (r : RdxRun) (k : Nat) : State :=
  if sendsHere s r k then giveCredit s r k 0 (reg s K.RDX_SEG_CREDITS) (arrivalWho s r.part) else s

/-- Take a segment that has arrived (R190, R197). -/
def takeSegment (s : State) (r : RdxRun) (p : Packet) (ls : List Line) : State :=
  let w := p.w6.toNat
  let seg := w % 2 ^ 32
  let sh := bits w 51 40
  let n := groupN s r.part
  let s := bump s K.RDX_BYTES_RECEIVED (64 * ls.length)
  if r.op = 0x52 then
    let tiles := segTiles r.desc.count n sh seg
    let data := lineData ls
    let bad := lineBad ls
    let ts := (List.range tiles).map (fun i => mkTile (bytesAt data (4096 * i) 4096) r.desc.format (elemCount r.desc.format) (maskOf ((List.range 64).filter (fun j => bad.contains (64 * i + j)))))
    let s := putRun s { r with shardsIn := smapPut r.shardsIn (segKey sh seg) ts }
    giveCredit s r (rdxRank p) sh 1 (whoRun r)
  else
    match layerOf s r.part r.desc.src with
    | none => s
    | some l =>
      let v := segOfLines (refMode s r.part r.epoch) l (shardLo l.tiles n sh + 16 * seg) (segTiles l.tiles n sh seg) ls
      putRun s { r with parts := { shard := sh, first := bits w 63 52, level := bits w 39 32, seg := seg, elems := v.elems, bad := v.bad } :: r.parts }

/-- Answer a request of a lower epoch with an abandon notice (R190). -/
def answerAbandon (s : State) (p : Packet) (q : Nat) : State :=
  sendGroup s q (rdxRank p) (rdxPkt s q 0x23 (rdxTag p) (rdxEpoch p) 0) [] (arrivalWho s q)

/-- Act on a reduction packet whose payload is whole: it waits while the block holds no descriptor of its tag and epoch (R190). -/
def rdxPacket (s : State) (q : Nat) (p : Packet) (ls : List Line) : State :=
  let wait := { s with rdx := { s.rdx with waiting := s.rdx.waiting ++ [{ p with partition := q, payload := ls }] } }
  match runOf s q (rdxTag p) (rdxEpoch p) with
  | none => wait
  | some r =>
    if rdxEpoch p < r.epoch then (if p.type = 0x23 then s else answerAbandon s p q)
    else if r.epoch < rdxEpoch p then wait
    else if p.type = 0x21 then rdxDrive (takeSegment s r p ls) r.sid
    else if p.type = 0x22 then rdxDrive (putRun s (addCredit r (rdxRank p) (p.w6.toNat % 256))) r.sid
    else
      match findStream s r.sid with
      | none => s
      | some x =>
        if r.left then s
        else if p.type = 0x20 then
          match openDiffers (openBytes s x) (lineData ls) with
          | some i => rdxEnd (bump s K.RDX_ABANDONS 1) r.sid 0x63 (rdxRank p + i * 4096)
          | none => rdxDrive (grantCredits s r (rdxRank p)) r.sid
        else if p.type = 0x23 then rdxEnd (bump s K.RDX_ABANDONS 1) r.sid 0x64 (rdxRank p)
        else
          let v : Part := { s := BitVec.ofNat 32 (p.w6.toNat % 2 ^ 32), c := BitVec.ofNat 32 (p.w6.toNat / 2 ^ 32) }
          rdxDrive (putRun s { r with norms := (rdxRank p, v, p.w5.getLsbD 48) :: r.norms }) r.sid

/-- Take up the packets that waited for a descriptor (R190). -/
def rdxRetry (s : State) (q tag : Nat) : State :=
  let l := s.rdx.waiting.filter (fun p => decide (p.partition = q ∧ rdxTag p = tag))
  let s := { s with rdx := { s.rdx with waiting := s.rdx.waiting.filter (fun p => decide (¬ (p.partition = q ∧ rdxTag p = tag))) } }
  l.foldl (fun s p => rdxPacket s q p p.payload) s

/-- An RDX descriptor: its checks once it holds a slot, then whatever it can do (R185, R187). -/
def rdxRun (s : State) (x : Stream) : State :=
  match findRun s x.id with
  | none => s
  | some r =>
    if !r.slotted then s
    else if r.started then rdxDrive s x.id
    else
      match rdxRefuses s x with
      | some (a, b) => rdxEnd s x.id a b
      | none =>
        let s := putRun { s with rdx := { s.rdx with tags := (x.d.part, r.tag) :: s.rdx.tags } } { r with started := true }
        rdxRetry (rdxDrive s x.id) x.d.part r.tag

/-- RDX_REDUCE (R184-R193). -/
def execRdxReduce (sid : Nat) (s : State) : Host.Outcome State Fault Refusal := whenWorking s (onStream s sid 0x50 rdxRun)

/-- RDX_NORM_LOCAL (R184, R193). -/
def execRdxNormLocal (sid : Nat) (s : State) : Host.Outcome State Fault Refusal := whenWorking s (onStream s sid 0x51 rdxRun)

/-- RDX_GATHER (R184). -/
def execRdxGather (sid : Nat) (s : State) : Host.Outcome State Fault Refusal := whenWorking s (onStream s sid 0x52 rdxRun)

/-- RDX_NORM (R193, R194). -/
def execRdxNorm (sid : Nat) (s : State) : Host.Outcome State Fault Refusal := whenWorking s (onStream s sid 0x53 rdxRun)

/-- RDX_STALLED: a descriptor has made no progress for RDX_STALL_MS (R192). -/
def execRdxStalled (sid : Nat) (s : State) : Host.Outcome State Fault Refusal :=
  whenWorking s (
    match findRun s sid, findStream s sid with
    | some r, some x =>
      if x.stallRaised || x.finish.isSome then s
      else raise (bump (updStream s sid (fun y => { y with stallRaised := true })) K.RDX_STALL_EVENTS 1) 0x02 stRDX 0 (some r.part) false r.tag
    | _, _ => s)

end Sys2Proof.Machine
end

