-- ==== Sys2Proof/Machine/Siv.lean ====
section
/-! DEFINITION. The sieve: merges, gathers and scatters by list, and the expert exchange (R135-R157). -/
namespace Sys2Proof.Machine

/-- Tiles already read, by name. -/
abbrev Known := SMap Tile

/-- The tiles that a sieve descriptor has read and keeps to its end. -/
def knownTiles (x : Stream) : Known := x.fetched.filterMap (fun e => if keepKey 0 ≤ e.1 then some (e.1 - keepKey 0, e.2) else none)

/-- One look at an index: its value, or what stands in the way. -/
inductive Look where
  | val (v : Nat)
  | need (name : Nat)
  | bad
  deriving DecidableEq, Repr

/-- Index number i of an operand whose index tiles begin at `b` (R136). -/
def lookIndex (k : Known) (b i : Nat) : Look :=
  match smapGet k (b + i / 1024) with
  | none => .need (b + i / 1024)
  | some t => if tileBad t (i % 1024 / 16) then .bad else .val (leAt t.data (i % 1024 * 4) 4)

/-- A merge under way (R140-R142): positions in A and B, emitted elements newest first (index, place in A, place in B), comparisons and
tiles skipped. -/
structure Walk where
  i : Nat
  j : Nat
  out : List (Nat × Option Nat × Option Nat)
  comps : Nat
  skips : Nat
  deriving DecidableEq, Repr

/-- How a walk stops. -/
inductive Stop where
  | need (name : Nat)
  | done
  | poison
  | unsorted (b : Bool) (tile : Nat)
  deriving DecidableEq, Repr

/-- A merge's operands. -/
structure Operands where
  mode : Nat
  a : Nat
  b : Nat
  na : Nat
  nb : Nat
  deriving DecidableEq, Repr

/-- The current index of an operand, its order checked (R142). -/
inductive Cur where
  | val (v : Nat)
  | stop (s : Stop)
  deriving DecidableEq, Repr

def curIndex (k : Known) (isB : Bool) (b i : Nat) : Cur :=
  match lookIndex k b i with
  | .need n => .stop (.need n)
  | .bad => .stop .poison
  | .val v =>
    if i = 0 then .val v
    else
      match lookIndex k b (i - 1) with
      | .need n => .stop (.need n)
      | .bad => .stop .poison
      | .val p => if p < v then .val v else .stop (.unsorted isB (i / 1024))

/-- Whether the tile that an operand is about to enter lies wholly below `v` (R142). -/
def tileBelow (k : Known) (b i n v : Nat) : Except Stop Bool :=
  if i % 1024 ≠ 0 then .ok false
  else
    match lookIndex k b (min (i + 1024) n - 1) with
    | .need m => .error (.need m)
    | .bad => .error .poison
    | .val l => .ok (decide (l < v))

/-- One step of a walk: both current elements stand in order before they are compared or their tiles passed over (R142).
DEDUCED: log entry 32. -/
def walkStep (k : Known) (o : Operands) (w : Walk) : Except Stop Walk :=
  if w.i < o.na ∧ w.j < o.nb then
    match curIndex k false o.a w.i, curIndex k true o.b w.j with
    | .stop e, _ => .error e
    | .val _, .stop e => .error e
    | .val a, .val b =>
      let skipA := if o.mode = 0 then tileBelow k o.a w.i o.na b else .ok false
      match skipA with
      | .error e => .error e
      | .ok true => .ok { w with i := min (w.i + 1024) o.na, comps := w.comps + 1, skips := w.skips + 1 }
      | .ok false =>
        let skipB := if o.mode ≠ 1 then tileBelow k o.b w.j o.nb a else .ok false
        match skipB with
        | .error e => .error e
        | .ok true => .ok { w with j := min (w.j + 1024) o.nb, comps := w.comps + 1, skips := w.skips + 1 }
        | .ok false =>
          if a = b then .ok { w with i := w.i + 1, j := w.j + 1, comps := w.comps + 2, out := if o.mode = 2 then w.out else (a, some w.i, some w.j) :: w.out }
          else if a < b then .ok { w with i := w.i + 1, comps := w.comps + 1, out := if o.mode = 0 then w.out else (a, some w.i, none) :: w.out }
          else .ok { w with j := w.j + 1, comps := w.comps + 1, out := if o.mode = 1 then (b, none, some w.j) :: w.out else w.out }
  else if o.mode = 0 then .error .done
  else if w.i < o.na then
    match curIndex k false o.a w.i with
    | .stop e => .error e
    | .val a => .ok { w with i := w.i + 1, comps := w.comps + 1, out := (a, some w.i, none) :: w.out }
  else if w.j < o.nb then
    match curIndex k true o.b w.j with
    | .stop e => .error e
    | .val b => .ok { w with j := w.j + 1, comps := w.comps + 1, out := if o.mode = 1 then (b, none, some w.j) :: w.out else w.out }
  else .error .done

/-- Walk as far as the tiles that are known allow. -/
def walk (k : Known) (o : Operands) : Nat → Walk → Walk × Stop
  | 0, w => (w, .done)
  | fuel + 1, w =>
    match walkStep k o w with
    | .ok w => walk k o fuel w
    | .error e => (w, e)

/-- First value tile of an operand of `n` elements at `b` (R136). -/
def valueBase (b n : Nat) : Nat := b + ceilDiv n 1024

/-- The value tile that holds element `p` of an operand, where values exist. -/
def valueName (f b n : Nat) (p : Option Nat) : Option Nat :=
  match p with
  | some p => if f = 6 then none else some (valueBase b n + p / elemCount f)
  | none => none

/-- One value of a chunk, and whether its source line is poisoned; zero where a side lacks the index (R140, R153). -/
def valueAt (k : Known) (f b n : Nat) (p : Option Nat) : Nat × Bool :=
  match p, valueName f b n p with
  | some p, some m =>
    match smapGet k m with
    | some t => (leAt t.data (p % elemCount f * elemSize f) (elemSize f), tileBad t (p % elemCount f * elemSize f / 64))
    | none => (0, false)
  | _, _ => (0, false)

/-- Tiles of a format from its elements and their poison. -/
def tilesFrom (f : Nat) : Nat → List (Nat × Bool) → List Tile
  | 0, _ => []
  | fuel + 1, es =>
    if es = [] then []
    else
      let c := es.take (elemCount f)
      let d := packElems (elemSize f) (c.map Prod.fst)
      mkTile (d ++ zeros (4096 - d.length)) f c.length (badLines (elemSize f) (fun i => match (c)[i]? with | some e => e.2 | none => false)) ::
        tilesFrom f fuel (es.drop (elemCount f))

/-- The tiles of one chunk of output elements (R140). -/
def chunkTiles (k : Known) (f : Nat) (o : Operands) (c : List (Nat × Option Nat × Option Nat)) : List Tile :=
  tilesFrom 6 5 (c.map (fun e => (e.1, false))) ++
  (if f = 6 then [] else tilesFrom f 5 (c.map (fun e => valueAt k f o.a o.na e.2.1))) ++
  (if f = 6 ∨ o.mode = 2 then [] else tilesFrom f 5 (c.map (fun e => valueAt k f o.b o.nb e.2.2)))

/-- The chunks of an output; the last one may be short. -/
def outChunks : Nat → List (Nat × Option Nat × Option Nat) → List (List (Nat × Option Nat × Option Nat))
  | 0, _ => []
  | fuel + 1, l => if l = [] then [] else l.take 4096 :: outChunks fuel (l.drop 4096)

/-- The value tiles that a list of output elements needs, those not known. -/
def valuesNeeded (k : Known) (f : Nat) (o : Operands) (l : List (Nat × Option Nat × Option Nat)) : Option Nat :=
  l.findSome? (fun e =>
    match valueName f o.a o.na e.2.1 with
    | some m => if smapHas k m then
        (match valueName f o.b o.nb e.2.2 with
         | some n => if smapHas k n || decide (o.mode = 2) then none else some n
         | none => none) else some m
    | none =>
      match valueName f o.b o.nb e.2.2 with
      | some n => if smapHas k n || decide (o.mode = 2) then none else some n
      | none => none)

/-- What a merge may deliver: full chunks, or every chunk when the walk is done, within capacity (R141). -/
def mergeOut (w : Walk) (e : Stop) (cap : Nat) : List (List (Nat × Option Nat × Option Nat)) :=
  let cs := outChunks (w.out.length + 1) w.out.reverse
  let cs := if e = .done then cs else cs.filter (fun c => decide (c.length = 4096))
  if cap = 0 then cs else cs.take cap

/-- Count what a walk has come to since the stream last counted it: `pos` comparisons, `mark` tiles passed over, `ordinal` output elements (R156,
R157). -/
def countWalk (s : State) (x : Stream) (w : Walk) : State :=
  let s := bump (bump (bump s K.SIV_COMPARISONS (w.comps - x.pos)) K.SIV_TILES_SKIPPED (w.skips - x.mark)) K.SIV_MERGED (w.out.length - x.ordinal)
  updStream s x.id (fun y => { y with pos := w.comps, mark := w.skips, ordinal := w.out.length })

/-- Deliver what a walk gives and end the merge as it ends (R141, R142, R152). -/
def mergeEnd (s : State) (x : Stream) (k : Known) (o : Operands) (cap : Nat) (w : Walk) (e : Stop) (failure : Option (Nat × Nat)) : State :=
  let ts := (mergeOut w e cap).flatMap (chunkTiles k x.d.format o)
  match deliverFrom x x.tilesDone 0 ts s with
  | (s, .wait) => s
  | (s, .fail a b) => failStream s x.id a b
  | (s, .ok) =>
    let total := min w.out.length (2 ^ 32 - 1)
    match failure, e with
    | some (a, b), _ => failStream s x.id a b
    | none, .poison => failStream s x.id 0x24 0
    | none, .unsorted b t => endStream s x.id 0x50 (b2n b * 2 ^ 31 + t)
    | none, _ => if cap ≠ 0 ∧ cap * 4096 < w.out.length then endStream s x.id 0x51 total else endStream s x.id 0 total

/-- A name of operand B is read through HOM, one of A at the source hop (R136, R137). -/
def mergeHop (d : Desc) (o : Operands) (name : Nat) : Nat :=
  if o.a ≤ name ∧ name < o.a + ceilDiv o.na 1024 + (if d.format = 6 then 0 else ceilDiv o.na (elemCount d.format)) then srcHop d else stHOM

/-- Read the tiles that a walk and its values need, one after another; each is read once. -/
def mergeLoop (x : Stream) (o : Operands) (cap : Nat) : Nat → Known → State → State
  | 0, _, s => s
  | fuel + 1, k, s =>
    let r := walk k o (o.na + o.nb + 1) { i := 0, j := 0, out := [], comps := 0, skips := 0 }
    let stopAt := match r.2 with | .need n => some n | _ => none
    let want := match stopAt with
      | some n => some n
      | none => valuesNeeded k x.d.format o (mergeOut r.1 r.2 cap).flatten
    match want with
    | none => mergeEnd (countWalk s x r.1) x k o cap r.1 r.2 none
    | some n =>
      match readHop s x (mergeHop x.d o n) n with
      | (s, .ok t) => mergeLoop x o cap fuel (smapPut k n t) (keepTiles s x [(n, t)])
      | (s, .wait) => countWalk s x r.1
      | (s, .fail a b) =>
        let out := { r.1 with out := ((mergeOut r.1 (.need n) cap).filter (fun c => (valuesNeeded k x.d.format o c).isNone)).flatten.reverse }
        mergeEnd (countWalk s x r.1) x k o cap out (.need n) (some (a, b))

/-- SIV_MERGE (R139-R142). -/
def execSivMerge (sid : Nat) (s : State) : Host.Outcome State Fault Refusal :=
  whenWorking s (onStream s sid 0x30 (fun s x =>
    let o : Operands := { mode := x.d.arg % 4, a := x.d.src, b := x.d.aux, na := x.d.scalar % 2 ^ 32, nb := x.d.scalar / 2 ^ 32 }
    let cap := x.d.arg / 256
    if o.mode = 3 ∨ o.na = 0 ∨ o.nb = 0 ∨ x.d.count ≠ ceilDiv o.na 1024 ∨ (cap = 0 ∧ sinkHop x.d ≠ stEP) then endStream s sid 0x17 0
    else mergeLoop x o cap (2 * (o.na + o.nb) + 4) (knownTiles x) s))

/-- The first fault of an index list of strictly ascending rows below `limit` (R143): its status and DETAIL. -/
def listFault (idx : List Nat) (limit : Nat) : Option (Nat × Nat) :=
  (List.range idx.length).findSome? (fun i =>
    let v := (idx[i]?).getD 0
    if decide (0 < i) && decide (v ≤ (idx[i - 1]?).getD 0) then some (0x50, i / 1024)
    else if limit ≤ v then some (0x54, i)
    else none)

/-- Rows packed into tiles of a format: a row is its bytes and the poison of its lines (R143, R153). `valid` bytes are valid in all. -/
def packRows (f k : Nat) : Nat → List (List Byte × List Nat) → List Tile
  | 0, _ => []
  | fuel + 1, rows =>
    if rows = [] then []
    else
      let rpt := 64 / 2 ^ k
      let c := rows.take rpt
      let d := (c.map Prod.fst).flatten
      let bad := (List.range c.length).flatMap (fun i => match (c)[i]? with | some r => r.2.map (fun j => i * 2 ^ k + j) | none => [])
      mkTile (d ++ zeros (4096 - d.length)) f (d.length / elemSize f) (maskOf bad) :: packRows f k fuel (rows.drop rpt)

/-- Count what the tiles delivered since a stream had `before` of them hold: of `total` output rows, `rpt` to a tile, those that satisfy each
counter's condition (R157). -/
def countRows (s : State) (sid rpt total before : Nat) (cs : List (Nat × (Nat → Bool))) : State :=
  let after := match findStream s sid with | some y => y.tilesDone | none => before
  let rs := rangeFrom (before * rpt) (min total (after * rpt) - before * rpt)
  cs.foldl (fun s c => bump s c.1 (rs.filter c.2).length) s

/-- Deliver a list of tiles, counting the rows in them as they go, and end with a status. -/
def deliverAll (s : State) (x : Stream) (rpt total : Nat) (cs : List (Nat × (Nat → Bool))) (ts : List Tile) (fin : State → State) : State :=
  match deliverFrom x x.tilesDone 0 ts s with
  | (s, r) =>
    let s := countRows s x.id rpt total x.tilesDone cs
    match r with
    | .ok => fin s
    | .wait => s
    | .fail a b => failStream s x.id a b

/-- Read a list or table of `n` entries through HOM, once; each of its entries counts one comparison (R137, R143, R148, R150, R156). -/
def readList (s : State) (x : Stream) (first n : Nat) : State × ListRead :=
  let names := rangeFrom first (ceilDiv n 1024)
  match keptTiles s x names with
  | some ts => (s, .ok ts)
  | none =>
    match readNames s x names with
    | (s, .ok ts) => (bump (keepTiles s x (List.zip names ts)) K.SIV_COMPARISONS n, .ok ts)
    | r => r

/-- Read named tiles at a hop, once. -/
def readTiles (s : State) (x : Stream) (hop : Nat) (names : List Nat) : State × ListRead :=
  match keptTiles s x names with
  | some ts => (s, .ok ts)
  | none =>
    match names.findSome? (hopRefuses s x.d.part hop) with
    | some st => (s, .fail st 0)
    | none =>
      match readNames s x names with
      | (s, .ok ts) => (keepTiles s x (List.zip names ts), .ok ts)
      | r => r

/-- A sieve descriptor's source tiles: from EP once all have arrived, else read once at the source hop. -/
def sivSources (s : State) (x : Stream) : State × ListRead :=
  if srcHop x.d = stEP then readSources s x x.d.count else readTiles s x (srcHop x.d) (rangeFrom x.d.src x.d.count)

/-- SIV_GATHER (R143). -/
def execSivGather (sid : Nat) (s : State) : Host.Outcome State Fault Refusal :=
  whenWorking s (onStream s sid 0x31 (fun s x =>
    let k := x.d.arg % 8
    let n := x.d.scalar % 2 ^ 32
    let rpt := 64 / 2 ^ k
    if k = 7 ∨ n = 0 then endStream s sid 0x17 0
    else
      match readList s x x.d.aux n with
      | (s, .wait) => s
      | (s, .fail a b) => failStream s sid a b
      | (s, .ok li) =>
        let idx := listEntries li n
        if listBad li n then failStream s sid 0x24 0
        else
          match listFault idx (x.d.count * rpt) with
          | some (a, b) => endStream s sid a b
          | none =>
            let need := distinct (idx.map (fun r => r / rpt))
            match readTiles s x (srcHop x.d) (need.map (fun t => x.d.src + t)) with
            | (s, .wait) => s
            | (s, .fail a b) => failStream s sid a b
            | (s, .ok ts) =>
              let rows := idx.map (fun r => rowOfTiles [(ts[(need.idxOf (r / rpt))]?).getD (zeroTile 0)] k (r % rpt))
              deliverAll s x rpt n [(K.SIV_ROWS, fun _ => true)] (packRows x.d.format k (n + 1) rows) (fun s => endStream s sid 0 0)))

/-- A tile with rows placed in it (R143). -/
def placeRows (f k : Nat) (t : Tile) (rows : List (Nat × List Byte × List Nat)) : Tile :=
  let data := rows.foldl (fun d r => bytesPut d (r.1 * 64 * 2 ^ k) r.2.1) t.data
  let here := rows.flatMap (fun r => rangeFrom (r.1 * 2 ^ k) (2 ^ k))
  let bad := rows.flatMap (fun r => r.2.2.map (fun j => r.1 * 2 ^ k + j))
  mkTile data f (elemCount f) ((t.info.poison &&& ~~~(maskOf here)) ||| maskOf bad)

/-- Write tiles by name at the sink hop, those before `from'` done already. -/
def writeSinks (x : Stream) (from' : Nat) : List (Nat × Nat × Tile) → State → State × NameWrite
  | [], s => (s, .ok)
  | (i, n, t) :: rest, s =>
    if i < from' then writeSinks x from' rest s
    else
      match writeHop s x (sinkHop x.d) n t with
      | (s, .ok) => writeSinks x from' rest (addDone (markPoison s x.id t) x.id 1)
      | r => r

/-- The rows of a scatter, its destination tile by tile: written, or handed to the trough (R143, R170). -/
def scatterRows (s : State) (x : Stream) (k : Nat) (idx : List Nat) (ts : List Tile) : State :=
  let rpt := 64 / 2 ^ k
  let n := idx.length
  let dtiles := x.d.scalar / 2 ^ 32
  if sinkHop x.d = stTRG then
    match layerOf s x.d.part x.d.dst with
    | none => s
    | some l =>
      let rows := (List.range n).map (fun i => let r := rowOfTiles ts k i; { row := (idx[i]?).getD 0, token := i, words := words32 r.1, bad := r.2 : RowIn })
      let s := addRows s l.num x.ordinal ((x.d.dst - l.first) * 1024) (16 * 2 ^ k) x.d.tensor x.epoch false rows
      endAcc (addDone (bump (markRows s x rows) K.SIV_ROWS n) x.id x.d.count) x 0 0
  else
    let zeroFill := x.d.arg.testBit 8
    let dst := if zeroFill then List.range dtiles else distinct (idx.map (fun r => r / rpt))
    let names := dst.map (fun t => x.d.dst + t)
    match names.findSome? (hopRefuses s x.d.part (sinkHop x.d)) with
    | some st => failStream s x.id st 0
    | none =>
      match (if zeroFill then (s, ListRead.ok (dst.map (fun _ => zeroTile x.d.format))) else readTiles s x (sinkHop x.d) names) with
      | (s, .wait) => s
      | (s, .fail a b) => failStream s x.id a b
      | (s, .ok olds) =>
        let out := (List.range dst.length).map (fun i =>
          let t := (dst[i]?).getD 0
          let rows := (List.range n).filterMap (fun m => let r := (idx[m]?).getD 0; if r / rpt = t then some (r % rpt, rowOfTiles ts k m) else none)
          (i, x.d.dst + t, placeRows x.d.format k ((olds[i]?).getD (zeroTile 0)) rows))
        match writeSinks x x.tilesDone out s with
        | (s, r) =>
          let s := countRows s x.id rpt (dst.length * rpt) x.tilesDone
            [(K.SIV_ROWS, fun p => idx.contains ((dst[p / rpt]?).getD 0 * rpt + p % rpt))]
          match r with
          | .ok => endStream s x.id 0 0
          | .wait => s
          | .fail a b => failStream s x.id a b

/-- End a sieve descriptor, and its ordinal where its sink is the trough. -/
def sivEnd (s : State) (x : Stream) (status detail : Nat) : State :=
  if sinkHop x.d = stTRG then endAcc s x status detail else endStream s x.id status detail
def sivFail (s : State) (x : Stream) (status detail : Nat) : State := sivEnd s x status (failDetail s x.id status detail)

/-- The trough's checks of a descriptor whose sink is TRG (R170); none of them for another sink. -/
def sivTrough (s : State) (x : Stream) (n : Nat) : AccCheck :=
  if sinkHop x.d ≠ stTRG then .go { num := 0, part := 0, queue := 0, tensor := 0, first := 0, tiles := 0, m := 0, isLocal := false, byDesc := false, unit := none, mask := [], reference := false, slots := 0, place := [], state := 0, taken := 0, ended := [], terms := [], finals := [], bad := [] }
  else if x.d.format ≠ 1 then .refuse 0x16 0
  else accCheck s x n

/-- SIV_SCATTER (R143, R170). -/
def execSivScatter (sid : Nat) (s : State) : Host.Outcome State Fault Refusal :=
  whenWorking s (rdxWake <| onStream s sid 0x32 (fun s x =>
    let k := x.d.arg % 8
    let n := x.d.scalar % 2 ^ 32
    let rpt := 64 / 2 ^ k
    let dtiles := x.d.scalar / 2 ^ 32
    if k = 7 ∨ n = 0 ∨ x.d.count ≠ ceilDiv n rpt then sivEnd s x 0x17 0
    else
      match sivTrough s x dtiles with
      | .refuse a b => sivEnd s x a b
      | .wait => s
      | .go _ =>
        match readList s x x.d.aux n with
        | (s, .wait) => s
        | (s, .fail a b) => sivFail s x a b
        | (s, .ok li) =>
          let idx := listEntries li n
          if listBad li n then sivFail s x 0x24 0
          else
            match listFault idx (dtiles * rpt) with
            | some (a, b) => sivEnd s x a b
            | none =>
              match sivSources s x with
              | (s, .wait) => s
              | (s, .fail a b) => sivFail s x a b
              | (s, .ok ts) => scatterRows s x k idx ts))

/-- An exchange plan (R145). -/
structure Plan145 where
  state : Nat
  part : Nat
  experts : Nat
  topk : Nat
  code : Nat
  cap : Nat
  counts : Nat
  dest : Nat
  deriving DecidableEq, Repr

/-- A plan's entries as STR hands them on at acceptance (R145), and back. -/
def planText (s : State) (x : Nat) : List Byte :=
  natLe 1 (reg s (K.XP_STATE x)) ++ natLe 1 (reg s (K.XP_PARTITION x)) ++ natLe 2 (reg s (K.XP_EXPERTS x)) ++ natLe 1 (reg s (K.XP_TOPK x)) ++
  natLe 1 (reg s (K.XP_ROW_CODE x)) ++ natLe 4 (reg s (K.XP_CAPACITY x)) ++ natLe 8 (reg s (K.XP_COUNTS_BASE x)) ++ natLe 4 (reg s (K.XP_DEST_TILES x))
def planOf (b : List Byte) : Plan145 :=
  { state := leAt b 0 1, part := leAt b 1 1, experts := leAt b 2 2, topk := leAt b 4 1, code := leAt b 5 1, cap := leAt b 6 4,
    counts := leAt b 10 8 % 2 ^ 48, dest := leAt b 18 4 }

/-- The check of a plan (R148 step 1). -/
def planRefuses (p : Plan145) (q : Nat) : Option Nat := if p.state ≠ 1 then some 1 else if p.part ≠ q then some 2 else none

/-- The null entry of a routing list or route table. -/
def nullEntry : Nat := 0xFFFFFFFF

/-- A number rounded up to a multiple. -/
def roundUp (n m : Nat) : Nat := ceilDiv n m * m

/-- Rows of one expert: where its slot's rows and its overflow rows go (R147), `o` its place in the overflow area. -/
def expertRows (e cap cp o : Nat) (ps : List Nat) : List (Nat × Nat) :=
  (List.range ps.length).map (fun i => (if i < cap then e * cp + i else o + (i - cap), (ps[i]?).getD 0))

/-- The layout of a dispatch (R147): (row, pair) in ascending expert, and the rows in all. -/
def layoutFrom (p : Plan145) (rpt cp : Nat) (route : List Nat) : Nat → Nat → Nat → List (Nat × Nat) → List (Nat × Nat) × Nat
  | 0, _, o, acc => (acc, o)
  | fuel + 1, e, o, acc =>
    let ps := (List.range route.length).filter (fun i => decide ((route[i]?).getD nullEntry = e))
    layoutFrom p rpt cp route fuel (e + 1) (o + roundUp (ps.length - p.cap) rpt) (acc ++ expertRows e p.cap cp o ps)

/-- The counts record's five tiles (R151). -/
def countTiles (p : Plan145) (route : List Nat) (visits : Nat) : List Tile :=
  let counts := (List.range 4096).map (fun e => if e < p.experts then (route.filter (fun r => decide (r = e))).length else 0)
  (List.range 4).map (fun i => mkTile (packElems 4 ((counts.drop (1024 * i)).take 1024)) 6 1024 0) ++
  [mkTile (natLe 512 visits ++ zeros 3584) 0 4096 0]

/-- Write a run of tiles through HOM, `pos` of them written already (R137). -/
def writeRun (x : Stream) (first : Nat) : List Tile → State → State × NameWrite
  | [], s => (s, .ok)
  | t :: rest, s =>
    match writeName s x first t with
    | (s, .ok) => writeRun x (first + 1) rest (updStream s x.id (fun y => { y with pos := y.pos + 1 }))
    | r => r

/-- Every one of a list of names can be written without waiting for a move or a tag. -/
def writesFree (s : State) (q : Nat) (names : List Nat) : Bool :=
  let far := (names.filter (fun n => !isWbName s q n && decide (tierOfLoc (homeOf s q n) = 2))).length
  names.all (fun n => isWbName s q n || !inMotion s.tracker.streams q n) && (decide (far = 0) || decide (far + (tagsUsed s).length ≤ 16384))

/-- The visit bits to which a DISPATCH adds its experts: its plan's, or none where the partition's epoch has advanced since its acceptance and
they were cleared (R151, R258). DESIGN CHOICE: log entry 102. -/
def visitsAt (s : State) (x : Stream) : Nat :=
  if x.epoch = reg s (K.EPOCH x.d.part) then (smapGet s.visits (x.d.arg % 16)).getD 0 else 0

/-- The end of a DISPATCH (R151, R154): its counts record whole, its visit bits, and completion with `spill` in DETAIL. The record's tiles are
written together, so that an ABORT finds either none of them or a stream that has ended. -/
def dispatchEnd (s : State) (x : Stream) (p : Plan145) (route : List Nat) (spill : Nat) : State :=
  let seen := route.foldl (fun v e => if e = nullEntry then v else v ||| 2 ^ e) (visitsAt s x)
  let names := rangeFrom p.counts 5
  if !writesFree s x.d.part names then s
  else
    match writeNames s x (List.zip names (countTiles p route seen)) with
    | (s, .wait) => s
    | (s, .fail a b) => failStream s x.id a b
    | (s, .ok) =>
      let s := if x.epoch = reg s (K.EPOCH x.d.part) then { s with visits := smapPut s.visits (x.d.arg % 16) seen } else s
      endStream s x.id 0 spill

/-- The layout rows, the route table and what each row counts as (R147, R149, R157): `place` gives a row's pair. -/
def dispatchPlaced (s : State) (x : Stream) (p : Plan145) (route : List Nat) (lay : List (Nat × Nat) × Nat) (ts : List Tile) : State :=
  let k := p.code
  let rpt := 64 / 2 ^ k
  let slots := p.experts * roundUp p.cap rpt
  let at_ := lay.1.foldl (fun mp rp => smapPut mp rp.1 rp.2) ([] : SMap Nat)
  let rows := (List.range lay.2).map (fun r => match smapGet at_ r with | some pr => rowOfTiles ts k (pr / p.topk) | none => (zeros (64 * 2 ^ k), []))
  let table := (List.range lay.2).map (fun r => match smapGet at_ r with | some pr => (pr / p.topk * 8 + pr % p.topk, false) | none => (nullEntry, false))
  deliverAll s x rpt lay.2
    [(K.SIV_ROWS, smapHas at_), (K.SIV_DISPATCHED, smapHas at_), (K.SIV_OVERFLOWED, fun r => smapHas at_ r && decide (slots ≤ r)),
     (K.SIV_PAD_ROWS, fun r => !smapHas at_ r)]
    (packRows x.d.format k (lay.2 + 1) rows) (fun s =>
      match writeRun x (x.d.scalar % 2 ^ 48 + x.pos) ((tilesFrom 6 (lay.2 + 1) table).drop x.pos) s with
      | (s, .wait) => s
      | (s, .fail a b) => failStream s x.id a b
      | (s, .ok) => dispatchEnd s x p route (lay.1.filter (fun rp => decide (slots ≤ rp.1))).length)

/-- SIV_DISPATCH (R146-R149, R151). `text` holds the plan as it stood at acceptance; `mark` is 1 once its null choices are counted. -/
def execSivDispatch (sid : Nat) (s : State) : Host.Outcome State Fault Refusal :=
  whenWorking s (onStream s sid 0x33 (fun s x =>
    let p := planOf x.text
    let n := x.d.arg / 256
    let rpt := 64 / 2 ^ p.code
    match planRefuses p x.d.part with
    | some d => endStream s sid 0x53 d
    | none =>
      if n = 0 ∨ x.d.count ≠ ceilDiv n rpt then endStream s sid 0x17 0
      else
        let m := n * p.topk
        match readList s x x.d.aux m with
        | (s, .wait) => s
        | (s, .fail a b) => failStream s sid a b
        | (s, .ok li) =>
          let route := listEntries li m
          if listBad li m then failStream s sid 0x24 0
          else
            let s := if x.mark = 1 then s
              else updStream (bump s K.SIV_UNROUTED (route.filter (fun e => decide (e = nullEntry))).length) sid (fun y => { y with mark := 1 })
            match (List.range m).find? (fun i => decide ((route[i]?).getD 0 ≠ nullEntry ∧ p.experts ≤ (route[i]?).getD 0)) with
            | some i => endStream s sid 0x54 i
            | none =>
              let cp := roundUp p.cap rpt
              let lay := layoutFrom p rpt cp route p.experts 0 (p.experts * cp) []
              if p.dest < lay.2 / rpt then endStream s sid 0x52 (lay.2 / rpt)
              else
                match sivSources s x with
                | (s, .wait) => s
                | (s, .fail a b) => failStream s sid a b
                | (s, .ok ts) => dispatchPlaced s x p route lay ts))

/-- The first route table entry that is out of range or repeats an earlier one (R150). -/
def tableFault (es : List Nat) (n k : Nat) : Option Nat :=
  (List.range es.length).find? (fun r =>
    let e := (es[r]?).getD nullEntry
    decide (e ≠ nullEntry) && (decide (n ≤ e / 8) || decide (k ≤ e % 8) || (es.take r).contains e))

/-- SIV_RETURN (R150, R170). -/
def execSivReturn (sid : Nat) (s : State) : Host.Outcome State Fault Refusal :=
  whenWorking s (rdxWake <| onStream s sid 0x34 (fun s x =>
    let p := planOf x.text
    let n := x.d.arg / 256
    let k := p.code
    let rpt := 64 / 2 ^ k
    match planRefuses p x.d.part with
    | some d => sivEnd s x 0x53 d
    | none =>
      if n = 0 then sivEnd s x 0x17 0
      else
        match sivTrough s x (ceilDiv (n * p.topk) rpt) with
        | .refuse a b => sivEnd s x a b
        | .wait => s
        | .go l =>
          let m := x.d.count * rpt
          match readList s x (x.d.scalar % 2 ^ 48) m with
          | (s, .wait) => s
          | (s, .fail a b) => sivFail s x a b
          | (s, .ok tt) =>
            let es := listEntries tt m
            if listBad tt m then sivFail s x 0x24 0
            else
              match tableFault es n p.topk with
              | some r => sivEnd s x 0x54 r
              | none =>
                match sivSources s x with
                | (s, .wait) => s
                | (s, .fail a b) => sivFail s x a b
                | (s, .ok ts) =>
                  let total := n * p.topk
                  let rows := (List.range total).map (fun pos =>
                    let r := es.idxOf (pos / p.topk * 8 + pos % p.topk)
                    if r < es.length then (true, rowOfTiles ts k r) else (false, zeros (64 * 2 ^ k), ([] : List Nat)))
                  let zeroRows := (rows.filter (fun r => !r.1)).length
                  if sinkHop x.d = stTRG then
                    let ins := (List.range total).map (fun i =>
                      match rows[i]? with
                      | some r => { row := i, token := i, words := words32 r.2.1, bad := r.2.2 : RowIn }
                      | none => { row := i, token := i, words := [], bad := [] : RowIn })
                    let s := addRows s l.num x.ordinal ((x.d.dst - l.first) * 1024) (16 * 2 ^ k) x.d.tensor x.epoch false ins
                    endAcc (addDone (bump (markRows s x ins) K.SIV_ROWS (total - zeroRows)) sid (ceilDiv total rpt)) x 0 zeroRows
                  else
                    deliverAll s x rpt total [(K.SIV_ROWS, fun p => match rows[p]? with | some r => r.1 | none => false)]
                      (packRows x.d.format k (total + 1) (rows.map Prod.snd)) (fun s => endStream s sid 0 zeroRows)))

end Sys2Proof.Machine
end

