-- ==== Sys2Proof/Machine/Barrier.lean ====
section
/-! DEFINITION. The barrier tree (R337-R341): positions, arrivals, the root's countdown and its passing on. -/
namespace Sys2Proof.Machine

/-- FP port cycles in a number of nanoseconds. -/
def fpCycles (s : State) (ns : Nat) : Nat := domainCycles s 17 ns

/-- The position that the table gives a node (R337). -/
def nodePosition (s : State) (q node : Nat) : Option Nat :=
  (List.range (reg s (K.BG_SIZE q))).find? (fun p => decide (positionNode s q p = some node))

/-- A peer is silent (R285). -/
def nodeSilent (s : State) (node : Nat) : Bool := s.fabric.peers.any (fun p => decide (p.node = node) && (p.silent || p.restarted))

/-- A position is silent: its node is, or its table entry cannot be read (R388). -/
def positionSilent (s : State) (q p : Nat) : Bool :=
  match positionNode s q p with
  | some n => nodeSilent s n
  | none => true

/-- The nearest ancestor of a position that is not silent (R341); none for the root. -/
def ancestorOf (s : State) (q : Nat) : Nat → Nat → Option Nat
  | 0, _ => none
  | fuel + 1, p =>
    if p = 0 then none
    else
      let a := (p - 1) / 16
      if a = reg s (K.BG_POSITION q) ∨ !positionSilent s q a then some a else ancestorOf s q fuel a

/-- This block's parent position: the one it re-parented to, or the tree's (R338, R341). -/
def parentOf (s : State) (q : Nat) : Option Nat :=
  let p := reg s (K.BG_POSITION q)
  if p = 0 then none
  else match smapGet s.barriers.parents q with
    | some a => some a
    | none => some ((p - 1) / 16)

/-- The positions this block waits for and releases: its children and those it adopted (R338, R341). -/
def childrenOf (s : State) (q : Nat) : List Nat :=
  let p := reg s (K.BG_POSITION q)
  let own := (rangeFrom (16 * p + 1) 16).filter (fun c => decide (c < reg s (K.BG_SIZE q)))
  own ++ ((s.barriers.adopted.filter (fun a => decide (a.1 = q))).map Prod.snd).filter (fun c => !own.contains c)

/-- The measured delay of the link to a node (R340). -/
def delayTo (s : State) (node : Nat) : Nat := (smapGet s.barriers.delays node).getD 0

/-- An arrival received, or this block's own. -/
def arrivalAt (s : State) (q kind epoch pos : Nat) : Option Arrival :=
  s.barriers.arrivals.find? (fun a => decide (a.part = q ∧ a.kind = kind ∧ a.epoch = epoch ∧ a.pos = pos))

/-- Record an arrival once. -/
def putArrival (s : State) (a : Arrival) : State :=
  if (arrivalAt s a.part a.kind a.epoch a.pos).isSome then s
  else { s with barriers := { s.barriers with arrivals := s.barriers.arrivals ++ [a] } }

/-- The subtree delay D of R339 step 1. -/
def subtreeDelay (s : State) (q kind epoch : Nat) : Nat :=
  ((childrenOf s q).map (fun c =>
    delayTo s ((positionNode s q c).getD 0) + (match arrivalAt s q kind epoch c with | some a => a.delay | none => 0))).foldl max 0 + Config.forwardCycles

/-- Send BARRIER_ARRIVE for a position to another (R320, R339). DEDUCED: log entry 39. -/
def sendArrive (s : State) (q kind epoch pos dest delay : Nat) (adopted : Bool) : State :=
  match positionNode s q dest with
  | some n => sendNode s q n { pkt0 with type := 0x34, w4 := BitVec.ofNat 64 (kind + b2n adopted * 4),
                                         w5 := BitVec.ofNat 64 (pos + delay * 2 ^ 32), w6 := BitVec.ofNat 64 epoch } [] (arrivalWho s q)
  | none => s

/-- Send BARRIER_RELEASE with a countdown to every position below (R339 step 3). -/
def sendReleases (s : State) (q kind epoch countdown : Nat) : State :=
  (childrenOf s q).foldl (fun s c =>
    match positionNode s q c with
    | some n => sendNode s q n { pkt0 with type := 0x35, w4 := BitVec.ofNat 64 kind, w5 := BitVec.ofNat 64 (countdown % 2 ^ 32),
                                           w6 := BitVec.ofNat 64 epoch } [] (arrivalWho s q)
    | none => s) s

/-- Begin a countdown of `r` cycles. -/
def startCountdown (s : State) (q kind epoch r : Nat) : State :=
  { s with barriers := { s.barriers with down := s.barriers.down.filter (fun d => decide (¬ (d.1 = q ∧ d.2.1 = kind))) ++ [(q, kind, epoch, r)] } }

/-- Pass the arrivals on once all are in: to the parent, or at the root as the countdown (R339 steps 1 and 2). -/
def barrierTry (s : State) (q kind epoch : Nat) : State :=
  let own := reg s (K.BG_POSITION q)
  if (arrivalAt s q kind epoch own).isNone || s.barriers.sentUp.contains (q, kind, epoch) ||
      (childrenOf s q).any (fun c => (arrivalAt s q kind epoch c).isNone) then s
  else
    let s := { s with barriers := { s.barriers with sentUp := (q, kind, epoch) :: s.barriers.sentUp } }
    let d := subtreeDelay s q kind epoch
    match parentOf s q with
    | some p => sendArrive s q kind epoch own p d (decide (p ≠ (own - 1) / 16))
    | none =>
      let c := d + fpCycles s (reg s K.FP_BARRIER_MARGIN_NS)
      startCountdown (sendReleases s q kind epoch (c - Config.forwardCycles)) q kind epoch c

/-- Ranks of a state, ascending. -/
def ranksIn (s : State) (q v : Nat) : List Nat := (List.range (wyN s q)).filter (fun r => decide (rankState s q r = v))

/-- Arrive at the positions of the LOST ranks of the wythe, where this block is its lowest LIVE rank (R341). -/
def arriveForLost (s : State) (q kind epoch : Nat) : State :=
  if !hasWythe s q || (ranksIn s q 0).headD 32 ≠ ownRank s q then s
  else
    (ranksIn s q 1).foldl (fun s r =>
      match (smapGet s.members.nodes (q * 32 + r)).bind (nodePosition s q) with
      | none => s
      | some p =>
        match ancestorOf s q 5 p with
        | none => s
        | some a =>
          if a = reg s (K.BG_POSITION q) then putArrival s { part := q, kind := kind, epoch := epoch, pos := p, delay := Config.forwardCycles }
          else sendArrive s q kind epoch p a Config.forwardCycles (decide (a ≠ (p - 1) / 16))) s

/-- A barrier of the step, reached under the map in force, puts an end to the point recorded for an earlier command (R291): what that point
said of the barriers holds no longer. -/
def dropRecorded (s : State) (q kind : Nat) : State :=
  if kind = 1 ∨ kind = 2 then { s with members := { s.members with recorded := s.members.recorded.filter (fun r => decide (r.part ≠ q)) } } else s

/-- This block arrives at a barrier (R339). -/
def barrierArriveOwn (s : State) (q kind epoch : Nat) : State :=
  if (arrivalAt s q kind epoch (reg s (K.BG_POSITION q))).isSome then s
  else
    let s := dropRecorded s q kind
    let s := putArrival s { part := q, kind := kind, epoch := epoch, pos := reg s (K.BG_POSITION q), delay := 0 }
    let s := { s with mixer := { s.mixer with arrived := (q, kind, epoch) :: s.mixer.arrived } }
    barrierTry (arriveForLost s q kind epoch) q kind epoch

/-- Forget a partition's barriers up to an epoch: those that are past, or of an attempt that a command gave up. -/
def dropBarriers (s : State) (q upTo : Nat) : State :=
  let past := fun (p k e : Nat) => decide (p = q ∧ e ≤ upTo) && decide (k ≤ 3)
  { s with barriers := { s.barriers with arrivals := s.barriers.arrivals.filter (fun a => !past a.part a.kind a.epoch),
                                         sentUp := s.barriers.sentUp.filter (fun a => !past a.1 a.2.1 a.2.2),
                                         down := s.barriers.down.filter (fun d => !past d.1 d.2.1 d.2.2.1) },
           mixer := { s.mixer with arrived := s.mixer.arrived.filter (fun a => !past a.1 a.2.1 a.2.2),
                                   released := s.mixer.released.filter (fun a => !past a.1 a.2.1 a.2.2) } }

end Sys2Proof.Machine
end

