-- ==== Sys2Proof/Machine/Mixer.lean ====
section
/-! DEFINITION. The mixer's sending side: packed bricks on their way to the holders, their rounds, acknowledgements and resends
(R248, R264, R268, R303, R389), and the epoch list (R271). -/
namespace Sys2Proof.Machine

/-- The words of a WY_BRICK or WY_ACK (R320): course and length in W5. -/
def brickW5 (s : State) (q c len : Nat) : Word64 := BitVec.ofNat 64 (ownCourse s q c % 2 ^ 44 + len * 2 ^ 44)

/-- Send a packed brick of this block to a rank (R248). -/
def sendBrick (s : State) (q kind c epoch : Nat) (b : List Byte) (r : Nat) (w : Who) : State :=
  sendRank s q r { pkt0 with type := 0x10, w4 := wyWord s q (ownRank s q) kind 0, w5 := brickW5 s q c b.length, w6 := BitVec.ofNat 64 (epoch % 2 ^ 48) } (asLines b) w

/-- Read this block's brick of a course and pack it; none where it cannot be read, or a line is poisoned. -/
def packOwn (s : State) (q c : Nat) (w : Who) : State × Option (List Byte) :=
  if !(brickReady s q c w).2 then ((brickReady s q c w).1, none)
  else
  match readBrickTiles s q w (rangeFrom (brickName s q c) 16) with
  | (s, none) => (s, none)
  | (s, some ts) =>
    let s := brickUsed s q c
    if ts.any (fun t => decide (t.info.poison ≠ 0)) then (s, none) else (s, some (packBrick (ts.map Tile.data)))

/-- Rebuild a retained brick with a poisoned line (R389): its own brick at OLD, from a row that still lacks the delta, and its NEW one.
None while the decode is under way. -/
def rebuildKept (s : State) (k : Kept) (w : Who) : State × Option (List Byte) :=
  let rows := (List.range (wyM s k.part)).filter (fun j => k.owed.contains (holderOf s k.part k.course j))
  match startRepairBy s k.part k.course (ownRank s k.part) fullMask false rows true with
  | (s, .done r) =>
    if !(brickReady s k.part k.course w).2 then ((brickReady s k.part k.course w).1, none)
    else
    let s := dropRepair s k.part k.course (ownRank s k.part) true
    match readBrickTiles s k.part w (rangeFrom (brickName s k.part k.course) 16) with
    | (s, none) => (s, none)
    | (s, some ts) =>
      let old := (List.range 16).map (fun t => bytesAt r.sum (4096 * t) 4096)
      let b := packBrick (List.zipWith bytesXor old (ts.map Tile.data))
      let p := retPlace (putKept s { k with lines := [] }) b w
      (bump (putKept p.1 { k with lines := p.2, len := b.length }) K.RET_REPAIRED 1, some b)
  | (s, _) => (s, none)

/-- The bytes of an entry for sending: a delta from retention, a gradient brick from its home. -/
def keptBytes (s : State) (k : Kept) (w : Who) : State × Option (List Byte) :=
  if k.kind = 1 then packOwn s k.part k.course w
  else
    match retRead s k with
    | (s, some b) => (s, some b)
    | (s, none) => rebuildKept s k w

/-- Send an entry to a rank. -/
def sendKept (s : State) (k : Kept) (r : Nat) (w : Who) : State :=
  match keptBytes s k w with
  | (s, some b) => sendBrick s k.part k.kind k.course k.epoch b r w
  | (s, none) => s

/-- Send an entry to the row of its next round. -/
def sendRound (s : State) (k : Kept) : State :=
  match k.rows[k.sent]? with
  | some r =>
    let k := { k with sent := k.sent + 1 }
    let s := putKept s k
    if k.owed.contains r then sendKept s k r k.who else s
  | none => s

/-- The entries of one unit of an update. -/
def unitKept (s : State) (sid unit : Nat) : List Kept := s.mixer.kept.filter (fun k => decide (k.kind = 0 ∧ k.sid = sid ∧ k.unit = unit))

/-- Begin the next round of a unit once every delta of the round before is acknowledged (R303). -/
def nextRound (sid unit : Nat) : Nat → State → State
  | 0, s => s
  | fuel + 1, s =>
    let es := unitKept s sid unit
    if es.any (fun k => (k.rows.take k.sent).any (fun r => k.owed.contains r) || k.refused) || es.all (fun k => decide (k.rows.length ≤ k.sent)) then s
    else nextRound sid unit fuel (es.foldl sendRound s)

/-- Place a delta in retention for its rows and count it (R221 step 3). -/
def keepDelta (s : State) (q sid c epoch unit : Nat) (rows : List Nat) (b : List Byte) (w : Who) : State :=
  let p := retPlace s b w
  let k : Kept := { part := q, sid := sid, kind := 0, course := c, epoch := epoch, unit := unit, rows := rows, sent := 0, owed := rows,
                    refused := false, len := b.length, lines := p.2, who := w }
  let s := bump p.1 K.TRW_DELTA_BRICKS 1
  if rows = [] then s else { s with mixer := { s.mixer with kept := s.mixer.kept ++ [k] } }

/-- The holders of a course's live rows, in row order (R290, R303). -/
def liveHolders (s : State) (q c : Nat) : List Nat := (liveRows s q c).map (holderOf s q c)

/-- Keep and dispatch a gradient brick: to each of the course's holders at once (R264). -/
def sendGradient (s : State) (q sid c epoch : Nat) (b : List Byte) (w : Who) : State :=
  let rows := liveHolders s q c
  let k : Kept := { part := q, sid := sid, kind := 1, course := c, epoch := epoch, unit := 0, rows := rows, sent := rows.length, owed := rows,
                    refused := false, len := b.length, lines := [], who := w }
  let s := bump (rows.foldl (fun s r => sendBrick s q 1 c epoch b r w) s) K.SEAL_BRICKS 1
  if rows = [] then s else { s with mixer := { s.mixer with kept := s.mixer.kept ++ [k] } }

/-- A holder has taken an entry (R268). -/
def ackKept (s : State) (k : Kept) (r : Nat) : State :=
  let k' := { k with owed := k.owed.filter (fun x => decide (x ≠ r)) }
  let s := if k'.owed = [] then dropKept s k else putKept s k'
  if k.kind = 0 then nextRound k.sid k.unit 4 s else s

/-- A holder has refused an entry (R268): the brick is not sent again, and the waiting descriptor reports it. -/
def refuseKept (s : State) (k : Kept) (r code : Nat) : State :=
  let s := putKept s { k with refused := true }
  let s := { s with mixer := { s.mixer with refusal := s.mixer.refusal ++ [(k.part, r, code)] } }
  raise s 0x05 stMIX 0 (some k.part) false (r + code * 256)

/-- Free what only absent rows have not acknowledged (R281, R293 step 4). -/
def freeAbsent (s : State) (q : Nat) : State :=
  (s.mixer.kept.filter (fun k => decide (k.part = q))).foldl (fun s k =>
    let live := liveHolders s q k.course
    let k' := { k with owed := k.owed.filter live.contains, refused := false }
    let s := if k'.owed = [] then dropKept s k else putKept s k'
    if k.kind = 0 then nextRound k.sid k.unit 4 s else s) s

/-- Ranges of the epoch list in use by a partition (R271). -/
def listOf (s : State) (q : Nat) : List EpochRange := s.mixer.list.filter (fun r => decide (r.part = q))

/-- Enter ranges in the epoch list. -/
def enterRanges (s : State) (q sid : Nat) (isSeal : Bool) (rs : List (Nat × Nat)) : State :=
  let l := s.mixer.list ++ rs.map (fun r => { part := q, first := r.1, names := r.2, sid := sid, isSeal := isSeal : EpochRange })
  let s := { s with mixer := { s.mixer with list := l } }
  setReg s (K.EPOCH_LIST_USED q) (listOf s q).length

/-- Replace a stream's ranges in the list. -/
def shrinkRanges (s : State) (q sid : Nat) (rs : List (Nat × Nat)) : State :=
  let s := { s with mixer := { s.mixer with list := s.mixer.list.filter (fun r => decide (r.sid ≠ sid)) } }
  enterRanges s q sid false (rs.filter (fun r => decide (r.2 ≠ 0)))

/-- The ranks that a partition's mixer waits for a ledger record of: its wythe peers that are not absent (R273, R290). -/
def ledgerPeers (s : State) (q : Nat) : List Nat :=
  (List.range (wyN s q)).filter (fun r => decide (r ≠ ownRank s q ∧ rankState s q r ≠ 1))

/-- Set the phase of a partition (R254). -/
def setPhase (s : State) (q v : Nat) : State := setReg s (K.STEP_PHASE q) v

/-- A phase is entered only forward (R254). -/
def raisePhase (s : State) (q v : Nat) : State := if reg s (K.STEP_PHASE q) < v then setPhase s q v else s

end Sys2Proof.Machine
end

