-- ==== Sys2Proof/Machine/Program.lean ====
section
/-! DEFINITION. The trowel's microprograms (R210-R215): their encoding, the built-in ones, the arithmetic of one operation, split master
weights (R217), and the run of one element. -/
namespace Sys2Proof.Machine

/-- An operation's fields (R211). -/
structure Op where
  code : Nat
  sr : Bool
  d : Nat
  a : Nat
  b : Nat
  c : Nat
  k : Nat
  deriving DecidableEq, Repr

/-- An operation from its word. -/
def opOf (w : Nat) : Op :=
  { code := w % 64, sr := w.testBit 6, d := bits w 11 8, a := bits w 16 12, b := bits w 21 17, c := bits w 26 22, k := bits w 31 27 }

/-- An operation's word. -/
def opWord (o : Op) : Nat := o.code + b2n o.sr * 64 + o.d * 256 + o.a * 4096 + o.b * 131072 + o.c * 4194304 + o.k * 134217728

/-- Shorthands of the listings of R215. -/
def opLoad (code d k : Nat) : Op := { code := code, sr := false, d := d, a := 0, b := 0, c := 0, k := k }
def op2 (code d a b : Nat) : Op := { code := code, sr := false, d := d, a := a, b := b, c := 0, k := 0 }
def opFma (d a b c : Nat) : Op := { code := 0x13, sr := false, d := d, a := a, b := b, c := c, k := 0 }
def opStp (k a : Nat) : Op := { code := 0x20, sr := false, d := 0, a := a, b := 0, c := 0, k := k }
def opWsub (a : Nat) : Op := { code := 0x21, sr := true, d := 0, a := a, b := 0, c := 0, k := 0 }

/-- The built-in programs (R215): s0 to s15 are operand codes 16 to 31. -/
def builtIn : Nat → List Op
  | 0 => [opLoad 2 0 0, opLoad 1 1 1, opLoad 1 2 2, opLoad 1 3 0, op2 0x12 4 0 18, opFma 1 1 17 4, op2 0x12 5 0 0, op2 0x12 5 5 20,
          opFma 2 2 19 5, op2 0x12 6 1 23, op2 0x12 7 2 24, op2 0x15 7 7 0, op2 0x10 7 7 21, op2 0x14 6 6 7, opFma 6 3 22 6,
          op2 0x12 6 6 16, opStp 1 1, opStp 2 2, opWsub 6]
  | 1 => [opLoad 2 0 0, opLoad 4 1 0, opLoad 5 2 0, op2 0x12 1 1 2, op2 0x12 1 1 23, op2 0x16 1 1 0, op2 0x12 4 0 1, opLoad 1 3 0,
          opFma 4 3 22 4, op2 0x12 4 4 16, opWsub 4]
  | 2 => [opLoad 2 0 1, op2 0x10 0 0 21, opLoad 1 1 0, op2 0x12 0 0 20, opFma 1 1 19 0, opStp 0 1]
  | 3 => [opLoad 2 0 0, opLoad 1 1 1, opLoad 1 3 0, op2 0x12 4 0 18, opFma 5 1 17 4, op2 0x1B 5 5 0, opFma 5 3 22 5, op2 0x12 5 5 16,
          op2 0x12 4 0 20, opFma 1 1 19 4, opStp 1 1, opWsub 5]
  | 4 => [opLoad 2 0 0, opLoad 1 1 1, opLoad 1 3 0, opFma 0 3 22 0, opFma 1 1 17 0, op2 0x12 5 1 16, opStp 1 1, opWsub 5]
  | _ => []

/-- The operations of a slot's program; none where the slot is empty. -/
def slotProgram (s : State) (slot : Nat) : List Op :=
  if slot < 8 then builtIn slot else ((smapGet s.programs slot).getD []).map opOf

/-- The operations of R212, and those that may round stochastically. -/
def opKnown (c : Nat) : Bool := [0x01, 0x02, 0x04, 0x05, 0x06, 0x10, 0x11, 0x12, 0x13, 0x14, 0x15, 0x16, 0x17, 0x18, 0x19, 0x1A, 0x1B, 0x1C, 0x1D, 0x20, 0x21].contains c
def opMayRound (c : Nat) : Bool := [0x10, 0x11, 0x12, 0x13, 0x14, 0x15, 0x16, 0x21].contains c

/-- The plane an operation stores (R210). -/
def storedBy (o : Op) : Option Nat := if o.code = 0x20 then some o.k else if o.code = 0x21 then some 0 else none

/-- An operation offends R214, given those before it. -/
def opOffends (before : List Op) (o : Op) : Bool :=
  !opKnown o.code || (decide (o.code = 0x01 ∨ o.code = 0x20) && decide (7 < o.k)) || (decide (o.code = 0x02) && decide (2 < o.k)) ||
    (o.sr && !opMayRound o.code) || (match storedBy o with | some p => before.any (fun x => decide (storedBy x = some p)) | none => false)

/-- The position in the tile of the first offending operation (R214), counted from 1; 0 for the count. -/
def programOffends (n : Nat) (ops : List Op) : Option Nat :=
  if n = 0 ∨ 48 < n then some 0
  else ((List.range n).find? (fun i => match ops[i]? with | some o => opOffends (ops.take i) o | none => true)).map (fun i => i + 1)

/-- The larger or the smaller of two words (R212): equal values differ at most in the sign of zero. DEDUCED: log entry 37. -/
def fMax (a b : Word32) : Word32 := if fLt a b then b else if fLt b a then a else a &&& b
def fMin (a b : Word32) : Word32 := if fLt a b then a else if fLt b a then b else a ||| b

/-- The canonical NaN. -/
def nan32 : Word32 := 0x7FC00000
def canon32 (a : Word32) : Word32 := if isNan32 a then nan32 else a

/-- The reciprocal square root, with a sticky bit (R212). -/
def vRsqrt : FVal → FVal
  | .nan => .nan
  | .inf neg => if neg then .nan else .fin false 0 0
  | .fin neg n e =>
    if n = 0 then .inf neg
    else if neg then .nan
    else
      let odd := e % 2 = 1
      let n2 := if odd then 2 * n else n
      let e2 := if odd then e - 1 else e
      let q := isqrt (2 ^ 240 / n2)
      .fin false (sticky q (2 ^ 240 - q * q * n2)) (-120 - e2 / 2 - 1)

/-- A rounded operation of R212. -/
def opArith (code : Nat) (rm : Rounding) (a b c : Word32) : Word32 :=
  let x := ofFp32 a
  let y := ofFp32 b
  if code = 0x10 then toFp32 rm (vAdd x y)
  else if code = 0x11 then toFp32 rm (vAdd x (vNeg y))
  else if code = 0x12 then toFp32 rm (vMul x y)
  else if code = 0x13 then toFp32 rm (vAdd (vMul x y) (ofFp32 c))
  else if code = 0x14 then toFp32 rm (vDiv x y)
  else if code = 0x15 then toFp32 rm (vSqrt x)
  else toFp32 rm (vRsqrt x)

/-- An exact operation of R212. -/
def opExact (code : Nat) (a b c : Word32) : Word32 :=
  if code = 0x1C then canon32 (if fLt 0 a then b else c)
  else if code = 0x17 ∨ code = 0x18 then
    if isNan32 a || isNan32 b then nan32 else if code = 0x17 then fMax a b else fMin a b
  else if isNan32 a then nan32
  else if code = 0x19 then a &&& 0x7FFFFFFF
  else if code = 0x1A then a ^^^ 0x80000000
  else if code = 0x1B then (if a &&& 0x7FFFFFFF = 0 then 0 else 0x3F800000 ||| (a &&& 0x80000000))
  else a

/-- The exponent of q(w) of R217: q(w) = ulp(w) × 2^−16. -/
def qExp (w : Word32) : Int := ((max 1 (bits w.toNat 30 23) : Nat) : Int) - 166

/-- A 16-bit two's-complement value. -/
def signed16 (r : Nat) : Int := if 32768 ≤ r % 65536 then ((r % 65536 : Nat) : Int) - 65536 else ((r % 65536 : Nat) : Int)

/-- ±n·2^e rounded to the nearest integer, ties to even. -/
def nearestInt (neg : Bool) (n : Nat) (e : Int) : Int :=
  let m := if 0 ≤ e then n * 2 ^ e.toNat
    else
      let sh := (-e).toNat
      let m := n >>> sh
      if roundsUp .rne (m % 2 = 1) (n % 2 ^ sh) sh then m + 1 else m
  if neg then -(m : Int) else (m : Int)

/-- What WSUB under SPLIT stores (R217): the weight, the residual, and whether it was clamped. -/
structure SplitOut where
  w : Word32
  r : Nat
  clamped : Bool
  deriving DecidableEq, Repr

/-- WSUB under SPLIT (R217). -/
def splitSub (w : Word32) (r : Nat) (a : Word32) : SplitOut :=
  if !isFinite (ofFp32 w) || !isFinite (ofFp32 a) then { w := fSub .rne w a, r := 0, clamped := false }
  else
    let e := vAdd (vAdd (ofFp32 w) (ofSigned (signed16 r) (qExp w) false)) (vNeg (ofFp32 a))
    let w' := toFp32 .rne e
    if !isFinite (ofFp32 w') then { w := w', r := 0, clamped := false }
    else
      match vAdd e (vNeg (ofFp32 w')) with
      | .fin neg n x =>
        let i := nearestInt neg n (x - qExp w')
        let j := max (-32768) (min 32767 i)
        { w := w', r := (if j < 0 then (j + 65536).toNat else j.toNat), clamped := decide (i ≠ j) }
      | _ => { w := w', r := 0, clamped := false }

/-- What an update's elements share: the program, the scalars, the clip factor and its square, whether `SR` acts, the context of its
rounding (R213), and the forms of the planes. -/
structure Env where
  ops : List Op
  scal : List Word32
  clip : Word32
  clip2 : Word32
  sr : Bool
  ctx : SrCtx
  half : Nat
  split : Bool
  resid : Nat
  deriving DecidableEq, Repr

/-- One element in progress or finished: registers and scalars, the planes' values, and what its stores counted. -/
structure Elem where
  regs : List Word32
  vals : List Nat
  nans : Nat
  clamps : Nat
  narrowed : List Narrowed
  deriving DecidableEq, Repr

/-- Store a value in a plane (R97, R212): the canonical NaN, narrowed where the plane is of 16 bits. -/
def storePlane (v : Env) (x : Elem) (k : Nat) (a : Word32) : Elem :=
  let a := canon32 a
  let n := if isNan32 a then 1 else 0
  if v.half.testBit k then
    let r := narrow fmtBF16 a
    { x with vals := x.vals.set k r.value, nans := x.nans + n, narrowed := r :: x.narrowed }
  else { x with vals := x.vals.set k a.toNat, nans := x.nans + n }

/-- A load's value (R212). `olds` are the planes' values before the update. -/
def loadValue (v : Env) (olds : List Nat) (g row col : Word32) (o : Op) : Word32 :=
  if o.code = 0x01 then
    let p := (olds[o.k]?).getD 0
    if v.split ∧ o.k = v.resid then toFp32 .rne (ofSigned (signed16 p) 0 false)
    else if v.half.testBit o.k then widen fmtBF16 p
    else BitVec.ofNat 32 p
  else if o.code = 0x02 then (if o.k = 0 then fMul .rne g v.clip else if o.k = 1 then fMul .rne g v.clip2 else g)
  else if o.code = 0x04 then row
  else if o.code = 0x05 then col
  else v.clip

/-- One operation of an element (R212, R213): `pos` its position, `elem` the element's counter. -/
def runOp (v : Env) (elem : Nat) (olds : List Nat) (g row col : Word32) (x : Elem) (pos : Nat) (o : Op) : Elem :=
  let r := fun i => (x.regs[i]?).getD 0
  let rm := if o.sr ∧ v.sr then srAt { v.ctx with elem := elem } 0 pos else .rne
  if o.code < 0x10 then { x with regs := x.regs.set o.d (loadValue v olds g row col o) }
  else if o.code = 0x20 then storePlane v x o.k (r o.a)
  else if o.code = 0x21 then
    if v.split then
      let y := splitSub (BitVec.ofNat 32 ((olds[0]?).getD 0)) ((olds[v.resid]?).getD 0) (r o.a)
      let x := storePlane v x 0 y.w
      { x with vals := x.vals.set v.resid y.r, clamps := x.clamps + b2n y.clamped }
    else storePlane v x 0 (opArith 0x11 rm (BitVec.ofNat 32 ((olds[0]?).getD 0)) (r o.a) 0)
  else if o.code < 0x17 then { x with regs := x.regs.set o.d (opArith o.code rm (r o.a) (r o.b) (r o.c)) }
  else { x with regs := x.regs.set o.d (opExact o.code (r o.a) (r o.b) (r o.c)) }

/-- The whole program of one element (R210). -/
def runElem (v : Env) (elem : Nat) (olds : List Nat) (g row col : Word32) : Elem :=
  let x : Elem := { regs := List.replicate 16 0 ++ v.scal, vals := olds, nans := 0, clamps := 0, narrowed := [] }
  (v.ops.foldl (fun (acc : Elem × Nat) o => (runOp v elem olds g row col acc.1 acc.2 o, acc.2 + 1)) (x, 0)).1

end Sys2Proof.Machine
end

