-- ==== Sys2Proof/Machine/Trw.lean ====
section
/-! DEFINITION. The trowel: TRW_LOAD_PROGRAM and TRW_UPDATE (R204-R229), and the spare's treatment of a unit in a roll forward
(R303-R306, R311). -/
namespace Sys2Proof.Machine

/-- Keys under which an update keeps what it fetched beside tiles by name: its parameter tile, its gating tile, the first halves of
16-bit bricks, and the header tiles of holders; from 2^51 on, what a unit keeps until it retires. -/
def paramKey : Nat := 2 ^ 50
def gateKey : Nat := 2 ^ 50 + 1
def halfKey (k t : Nat) : Nat := 2 ^ 50 + 16 + 16 * k + t
def rankKey (r name : Nat) : Nat := 2 ^ 52 + r * 2 ^ 48 + name

/-- Keys of what a unit keeps until it retires: the planes that the host returned for it, and the courses whose OLD bricks were decoded for it. -/
def hostKey (i : Nat) : Nat := 2 ^ 51 + i
def oldKey (c : Nat) : Nat := 2 ^ 51 + 2 ^ 50 + c

/-- TRW_LOAD_PROGRAM (R205, R214). -/
def execTrwLoadProgram (sid : Nat) (s : State) : Host.Outcome State Fault Refusal :=
  whenWorking s (onStream s sid 0x60 (fun s x =>
    let slot := x.d.arg % 16
    if slot < 8 then endStream s sid 0x68 0xFE
    else
      match readName s x x.d.src with
      | (s, .wait) => s
      | (s, .fail a b) => failStream s sid a b
      | (s, .ok t) =>
        if t.info.poison ≠ 0 then failStream s sid 0x24 0
        else
          let n := leAt t.data 0 4 % 64
          let ws := (List.range n).map (fun i => leAt t.data (4 * (i + 1)) 4)
          match programOffends n (ws.map opOf) with
          | some i => endStream s sid 0x68 i
          | none =>
            let s := setRegBit { s with programs := smapPut s.programs slot ws } K.TRW_SLOTS slot true
            endStream (addDone s sid 1) sid 0 n))

/-- Planes of an update (R206), and whether plane k holds 16-bit values. -/
def planesOf (d : Desc) : Nat := bits d.arg 6 4 + 1
def halfMask (d : Desc) : Nat := bits d.arg 15 8 % 2 ^ planesOf d
def isHalf (d : Desc) (k : Nat) : Bool := (halfMask d).testBit k

/-- First name and number of tiles of plane k (R207). -/
def planeFirst (d : Desc) (k : Nat) : Nat := d.src + k * (d.scalar % 2 ^ 48)
def planeTiles (d : Desc) (k : Nat) : Nat := if isHalf d k then d.count / 2 else d.count

/-- The tiles that lie at tile `n` of plane 0 and beyond it for `m` plane-0 tiles, in plane k. -/
def planeSpan (d : Desc) (k n m : Nat) : Nat × Nat :=
  if isHalf d k then (planeFirst d k + n / 2, m / 2) else (planeFirst d k + n, m)

/-- The parameter tile's fields (R208). -/
structure Params where
  scal : List Word32
  layerFirst : Nat
  mask : Nat
  unit : Nat
  useClip : Bool
  split : Bool
  resid : Nat
  gated : Bool
  plan : Nat
  row : Nat
  col : Nat
  cols : Nat
  expFirst : Nat
  expTiles : Nat
  expCount : Nat
  deriving DecidableEq, Repr

def paramsOf (t : Tile) : Params :=
  let w := fun i => leAt t.data (8 * i) 8
  { scal := (List.range 16).map (fun i => BitVec.ofNat 32 (leAt t.data (4 * i) 4)), layerFirst := w 8 % 2 ^ 48, mask := w 9 % 2 ^ 48,
    unit := bits (w 9) 52 48, useClip := (w 10).testBit 0, split := (w 10).testBit 1, resid := bits (w 10) 4 2, gated := (w 10).testBit 5,
    plan := bits (w 10) 9 6, row := w 12 % 2 ^ 48, col := w 13 % 2 ^ 48, cols := w 14 % 2 ^ 32, expFirst := w 15 % 2 ^ 48,
    expTiles := w 16 % 2 ^ 32, expCount := bits (w 16) 44 32 }

/-- The program copied at acceptance (R205). -/
def programOf (x : Stream) : List Op := (elemsFrom 4 64 x.text).map opOf

def uses (ops : List Op) (code : Nat) : Bool := ops.any (fun o => decide (o.code = code))

/-- The planes that an update stores (R210, R226). -/
def storedPlanes (s : State) (x : Stream) (p : Params) : List Nat :=
  (List.range (planesOf x.d)).filter (fun k =>
    decide (reg s K.TRW_MODE = 2) || (programOf x).any (fun o => decide (storedBy o = some k)) ||
      (p.split && decide (k = p.resid) && uses (programOf x) 0x21))

/-- Whether an update's planes are coded: in the coded range of a partition with a wythe map. -/
def codedUpdate (s : State) (x : Stream) : Bool := (codedCourse s x.d.part x.d.src).isSome

/-- The first offending plane (R206, R207, R209 check 2). -/
def planeOffends (s : State) (x : Stream) : Option Nat :=
  let d := x.d
  let stride := d.scalar % 2 ^ 48
  let inside := fun k => (codedCourse s d.part (planeFirst d k)).isSome && (codedCourse s d.part (planeFirst d k + planeTiles d k - 1)).isSome
  let touches := fun k => hasWythe s d.part && overlaps (planeFirst d k) (planeTiles d k) (codedFirst s d.part) (16 * codedCourses s d.part)
  if d.src % 16 ≠ 0 ∨ d.arg.testBit 8 then some 0
  else if 1 < planesOf d ∧ (stride % 16 ≠ 0 ∨ stride < d.count) then some 1
  else (List.range (planesOf d)).find? (fun k =>
    !rangeOk (planeFirst d k) (planeTiles d k) || overlaps (planeFirst d k) (planeTiles d k) d.aux d.count ||
    (List.range k).any (fun j => overlaps (planeFirst d k) (planeTiles d k) (planeFirst d j) (planeTiles d j)) ||
    decide (inside k ≠ touches k) || decide (inside k ≠ inside 0))

/-- The word of the first field out of range (R209 check 4, R214). -/
def paramOffends (d : Desc) (ops : List Op) (p : Params) : Option Nat :=
  let factors := uses ops 0x04 || uses ops 0x05
  let high := ops.any (fun o => decide (o.code = 0x01 ∨ o.code = 0x20) && decide (planesOf d ≤ o.k))
  let stores0 := ops.any (fun o => decide (o.code = 0x20 ∧ o.k = 0))
  if (p.layerFirst ≠ nullName ∧ d.src < p.layerFirst) ∨ ((factors ∨ p.mask ≠ nullName) ∧ p.layerFirst = nullName) then some 8
  else if p.mask ≠ nullName ∧ (p.unit < 4 ∨ 20 < p.unit) then some 9
  else if p.split ∧ (p.resid = 0 ∨ planesOf d ≤ p.resid ∨ !isHalf d p.resid ∨ stores0) then some 10
  else if uses ops 0x04 ∧ p.row = nullName then some 12
  else if uses ops 0x05 ∧ p.col = nullName then some 13
  else if factors ∧ (p.cols = 0 ∨ 2 ^ 31 < p.cols) then some 14
  else if p.gated ∧ (p.expFirst < d.src ∨ d.src + d.count ≤ p.expFirst) then some 15
  else if p.gated ∧ (p.expTiles = 0 ∨ p.expTiles % 16 ≠ 0 ∨ p.expCount = 0 ∨ 4096 < p.expCount ∨ d.src + d.count < p.expFirst + p.expTiles * p.expCount) then some 16
  else if high then some 0xFF
  else none

/-- The local layer that holds an update's whole gradient (R209 check 5). -/
def gradLayer (s : State) (x : Stream) : Option Layer :=
  match layerOf s x.d.part x.d.aux with
  | some l => if l.isLocal && decide (x.d.aux + x.d.count ≤ l.first + l.tiles) then some l else none
  | none => none

/-- A gradient tile's layer, where it lies in a local layer that is final (R216). -/
def finalLayer (s : State) (q name : Nat) : Option Layer :=
  match layerOf s q name with
  | some l => if l.isLocal && decide (l.state = 3) then some l else none
  | none => none

/-- Checks 4 to 6 of R209, once the parameter tile is there, up to the read of the gating plan's tile. -/
def updateOffends (s : State) (x : Stream) (p : Params) : Option (Nat × Nat) :=
  match paramOffends x.d (programOf x) p with
  | some w => some (0x69, w)
  | none =>
    if x.d.arg.testBit 16 ∧ gradLayer s x = none then some (0x6D, 1)
    else if x.d.arg.testBit 16 && (match gradLayer s x with | some l => decide (l.state ≠ 3) | none => true) then some (0x6D, 2)
    else if p.gated ∧ reg s (K.XP_STATE p.plan) ≠ 1 then some (0x6E, 1)
    else if p.gated ∧ reg s (K.XP_PARTITION p.plan) ≠ x.d.part then some (0x6E, 2)
    else none

/-- The checks of R209 after that read, and of R270; `gate` is tile 4 of the counts record. -/
def clipOffends (s : State) (x : Stream) (p : Params) (gate : Option Tile) : Option (Nat × Nat) :=
  let clip := clipOf s x.d.part x.epoch
  if p.gated && (match gate with | some t => decide (t.info.poison ≠ 0) | none => false) then some (0x24, 0)
  else if p.useClip ∧ clip = none then some (0x6B, 0)
  else if p.useClip && (match clip with | some c => c.poison | none => false) then some (0x24, 0)
  else if p.useClip && (match clip with | some c => isNan32 c.value | none => false) then some (0x6C, 0)
  else if codedUpdate s x ∧ !within x.d.aux x.d.count (gradFirst s x.d.part) (16 * gradCourses s x.d.part) then some (0x72, 0)
  else none

/-- Read the parameter tile, and with GATED the plan's visit bits, at acceptance (R208, R219). A tile that must come from a peer is
awaited when the update starts. -/
def trwFetch (s : State) (sid : Nat) : State :=
  match findStream s sid with
  | none => s
  | some x =>
    if smapHas x.fetched paramKey then s
    else
      match readName s x x.d.dst with
      | (s, .ok t) =>
        let s := updStream s sid (fun y => { y with fetched := smapPut y.fetched paramKey t })
        let p := paramsOf t
        if p.gated then
          match readName s x (reg s (K.XP_COUNTS_BASE p.plan) % 2 ^ 48 + 4) with
          | (s, .ok g) => updStream s sid (fun y => { y with fetched := smapPut y.fetched gateKey g })
          | (s, _) => s
        else s
      | (s, _) => s

/-- The first course of an update's stored bricks that a range of the epoch list covers (R271). -/
def rewrites (s : State) (x : Stream) (rs : List (Nat × Nat)) : Option Nat :=
  ((listOf s x.d.part).filter (fun e => decide (e.sid ≠ x.id))).foldl (fun acc e => rs.foldl (fun acc r =>
    if overlaps r.1 r.2 e.first e.names then
      let c := (codedCourse s x.d.part (max r.1 e.first)).getD 0
      match acc with
      | some a => some (min a c)
      | none => some c
    else acc) acc) none

/-- Enter an update's bricks in the epoch list and decide COMMIT_REWRITE and COMMIT_LIST_FULL, once (R271). `ordinal` holds 1 when it is
entered, else 2 + status × 2^32 + DETAIL. -/
def trwEnter (s : State) (sid : Nat) : State :=
  match findStream s sid with
  | none => s
  | some x =>
    match smapGet x.fetched paramKey with
    | none => s
    | some t =>
      if x.ordinal ≠ 0 ∨ x.hold ≠ 0 then s
      else if !codedUpdate s x then updStream s sid (fun y => { y with ordinal := 1 })
      else
        let rs := (storedPlanes s x (paramsOf t)).map (fun k => (planeFirst x.d k, planeTiles x.d k))
        match rewrites s x rs with
        | some c => updStream s sid (fun y => { y with ordinal := 2 + 0x73 * 2 ^ 32 + c % 2 ^ 32 })
        | none =>
          if 16384 < (listOf s x.d.part).length + rs.length then updStream s sid (fun y => { y with ordinal := 2 + 0x74 * 2 ^ 32 })
          else updStream (enterRanges s x.d.part sid false rs) sid (fun y => { y with ordinal := 1 })

/-- What an update does when it joins an epoch: at its acceptance, or at the end of a commit hold. -/
def trwJoin (s : State) (sid : Nat) : State :=
  match findStream s sid with
  | none => s
  | some x =>
    let s := { s with mixer := { s.mixer with updates := s.mixer.updates ++ [(x.d.part, sid, 0)] } }
    trwEnter (trwFetch s sid) sid

/-- What STR and the trowel do at an update's acceptance: copy the program, read the tiles (R205, R208). DEDUCED: log entry 35. -/
def trwAccept (s : State) (sid : Nat) : State :=
  match findStream s sid with
  | none => s
  | some x =>
    let s := updStream s sid (fun y => { y with text := (slotProgram s (x.d.arg % 16)).flatMap (fun o => natLe 4 (opWord o)) })
    if x.hold = 0 then trwJoin s sid else trwFetch s sid

/-- Record how an update ended, for MIX_COMMIT (R274). -/
def updateEnded (s : State) (sid verdict : Nat) : State :=
  { s with mixer := { s.mixer with updates := s.mixer.updates.map (fun u => if u.2.1 = sid then (u.1, sid, verdict) else u) } }

/-- Give up the local layer, if it is final, of an update with RELEASE (R173, R216). -/
def trwRelease (s : State) (x : Stream) : State :=
  if x.d.arg.testBit 16 then (match gradLayer s x with | some l => if l.state = 3 then freeLayer s l.num else s | none => s) else s

/-- The list keeps the units an update retired (R271). -/
def trwShrink (s : State) (x : Stream) : State :=
  match smapGet x.fetched paramKey with
  | none => s
  | some t => if codedUpdate s x then shrinkRanges s x.d.part x.id ((storedPlanes s x (paramsOf t)).map (fun k => planeSpan x.d k 0 x.pos)) else s

/-- End an update; MIX_COMMIT takes it as ended once its stores are answered (R274). -/
def trwEnd (s : State) (sid status detail : Nat) : State :=
  match findStream s sid with
  | none => s
  | some x =>
    let s := if x.unacked = 0 then updateEnded s sid (if status = 0 then 1 else 2) else s
    let s := if status = 0 then s else trwShrink s x
    endStream (trwRelease s x) sid status detail

/-- What one unit comes to. -/
inductive UnitEnd where
  | retired
  | wait
  | room
  | ends (status detail : Nat)
  deriving DecidableEq, Repr

/-- Read tiles for a unit: `true` at the source hop, `false` through HOM. -/
def readMixed (s : State) (x : Stream) (l : List (Bool × Nat)) : State × ListRead :=
  match l.findSome? (fun e => if e.1 then hopRefuses s x.d.part (srcHop x.d) e.2 else none) with
  | some st => (s, .fail st 0)
  | none => readNames s x (l.map Prod.snd)

/-- Tile n of plane 0 lies in an expert whose visit bit is clear (R219). -/
def gatedTile (p : Params) (gate : Option Tile) (name : Nat) : Bool :=
  match gate with
  | none => false
  | some t =>
    p.gated && decide (p.expFirst ≤ name) && decide (name < p.expFirst + p.expTiles * p.expCount) &&
      !(((t.data[(name - p.expFirst) / p.expTiles / 8]?).getD 0).getLsbD ((name - p.expFirst) / p.expTiles % 8))

/-- The tensor index of the first element of a plane-0 tile (R208). -/
def tensorIndex (p : Params) (name : Nat) : Nat := 1024 * (name - p.layerFirst)

/-- Numbers of the tiles of a factor vector that a run of 16,384 elements needs. -/
def factorTiles (g0 : Nat) (f : Nat → Nat) : List Nat := distinct ((List.range 16384).map (fun i => f (g0 + i) / 1024))

/-- Numbers of the tiles of a mask bitmap that a unit needs (R218). -/
def maskRange (u g0 : Nat) : List Nat :=
  let lo := g0 / 2 ^ u / 32768
  rangeFrom lo ((g0 + 16383) / 2 ^ u / 32768 + 1 - lo)

/-- Fetched tiles by their number. -/
def tileMap (ns : List Nat) (ts : List Tile) : SMap Tile := (ns.zip ts).foldl (fun m e => smapPut m e.1 e.2) []

/-- One element of a factor vector. -/
def factorAt (m : SMap Tile) (r : Nat) : Word32 := match smapGet m (r / 1024) with | some t => BitVec.ofNat 32 (leAt t.data (r % 1024 * 4) 4) | none => 0

/-- A needed line of a factor vector is poisoned. -/
def factorBad (m : SMap Tile) (rs : List Nat) : Bool :=
  m.any (fun e => decide (e.2.info.poison ≠ 0)) && rs.any (fun r => match smapGet m (r / 1024) with | some t => tileBad t (r % 1024 / 16) | none => false)

/-- Bit g of a mask bitmap, and whether its line is poisoned. -/
def maskBit (m : SMap Tile) (b : Nat) : Bool :=
  match smapGet m (b / 32768) with | some t => ((t.data[b % 32768 / 8]?).getD 0).getLsbD (b % 8) | none => true
def maskBad (m : SMap Tile) (b : Nat) : Bool := match smapGet m (b / 32768) with | some t => tileBad t (b % 32768 / 512) | none => false

/-- The values of a plane for one plane-0 tile: the whole tile, or the half of a 16-bit tile (R207). -/
def planeValues (d : Desc) (k n : Nat) (t : Tile) : List Nat :=
  if isHalf d k then ((elemsFrom 2 2048 t.data).drop (n % 2 * 1024)).take 1024 else elemsFrom 4 1024 t.data

/-- The elements of one plane-0 tile, one by one: masked ones pass through (R210, R218). -/
def runTile (v : Env) (ctr : Nat) (row col : Nat → Word32) (live : Nat → Bool) : Nat → Nat → List (List Nat) → List Nat → List (Elem × Bool)
  | 0, _, _, _ => []
  | fuel + 1, i, olds, gs =>
    let os := olds.map (fun l => l.headD 0)
    let e : Elem × Bool := if live i then (runElem v (ctr + i) os (BitVec.ofNat 32 (gs.headD 0)) (row i) (col i), true)
      else ({ regs := [], vals := os, nans := 0, clamps := 0, narrowed := [] }, false)
    e :: runTile v ctr row col live fuel (i + 1) (olds.map (fun l => l.drop 1)) (gs.drop 1)

/-- A brick to write: its plane, its first name, the tiles it held and their new data. -/
structure BrickOut where
  plane : Nat
  first : Nat
  olds : List Tile
  news : List (List Byte)
  deriving DecidableEq, Repr

/-- The new tile in place of an old one: the same form, zero from the VALID elements of its format on (R36, R387). -/
def renewTile (t : Tile) (data : List Byte) : Tile :=
  let n := t.info.valid * elemSize t.info.format
  let data := data.take n ++ zeros (4096 - n)
  { data := data, info := { t.info with crc := BitVec.ofNat 32 (crc32c data), poison := 0 } }

/-- What the trowel made of a unit: the planes' new bytes, by plane and plane-0 tile. -/
structure UnitOut where
  planes : List (List (List Byte))
  ran : Nat
  masked : Nat
  nans : Nat
  clamps : Nat
  narrowed : List Narrowed
  deriving DecidableEq, Repr

/-- Assemble the bytes of plane k of a unit as tiles: 16 of them, or 8 of a 16-bit plane. -/
def planeBytes (d : Desc) (k : Nat) (tiles : List (List (Elem × Bool))) : List (List Byte) :=
  let one := fun (es : List (Elem × Bool)) => es.flatMap (fun e => natLe (if isHalf d k then 2 else 4) ((e.1.vals[k]?).getD 0))
  let bs := tiles.map one
  if isHalf d k then (List.range 8).map (fun i => (bs[2 * i]?).getD [] ++ (bs[2 * i + 1]?).getD []) else bs

/-- What the host returns for a unit in host-assisted mode (R226): each plane's new bytes. A unit that is held is sent once, and keeps them. -/
def hostPlanes (s : State) (x : Stream) (v : Env) (olds : List (List Tile)) (grads : List Tile) : State × List (List Byte) :=
  let per := (List.range (planesOf x.d)).map (fun k => if isHalf x.d k then 8 else 16)
  let cut := fun (b : List Byte) => (List.range per.length).map (fun k => bytesAt b (4096 * (per.take k).sum) (4096 * (per[k]?).getD 0))
  if smapHas x.fetched (hostKey 0) then
    (s, cut ((List.range per.sum).flatMap (fun i => match smapGet x.fetched (hostKey i) with | some t => t.data | none => zeros 4096)))
  else
    let h := hostWork s (whoOf x) (olds.flatten.map Tile.data ++ grads.map Tile.data ++ [bytes32 (v.clip :: v.scal)]) (4096 * per.sum)
    (updStream h.1 x.id (fun y => { y with fetched := (List.range per.sum).foldl (fun m i =>
      smapPut m (hostKey i) { data := bytesAt h.2 (4096 * i) 4096, info := (zeroTile 0).info }) y.fetched }), cut h.2)

/-- A value of plane k is a NaN (R114): a residual plane holds integers. -/
def planeNan (v : Env) (k a : Nat) : Bool :=
  if v.split ∧ k = v.resid then false else if v.half.testBit k then isNan32 (widen fmtBF16 a) else isNan32 (BitVec.ofNat 32 a)

/-- The host's new planes in host-assisted mode, masked elements kept (R226), and how many NaNs they bring (R114). -/
def hostUnit (s : State) (x : Stream) (v : Env) (olds : List (List Tile)) (grads : List Tile) (tiles : List (List (Elem × Bool))) :
    State × List (List (List Byte)) × Nat :=
  let per := fun k => if isHalf x.d k then 8 else 16
  let h := hostPlanes s x v olds grads
  let live := (tiles.map (fun es => es.map Prod.snd)).flatten
  let nans := ((List.range (planesOf x.d)).map (fun k =>
    let n := if isHalf x.d k then 2 else 4
    ((List.range 16384).filter (fun i => (live[i]?).getD true && planeNan v k (leAt ((h.2[k]?).getD []) (n * i) n))).length)).sum
  (h.1, (List.range (planesOf x.d)).map (fun k =>
    let n := if isHalf x.d k then 2 else 4
    let new := (h.2[k]?).getD []
    let old := (planeBytes x.d k tiles).flatten
    let mixed := (List.range 16384).flatMap (fun i => if (live[i]?).getD true then bytesAt new (n * i) n else bytesAt old (n * i) n)
    (List.range (per k)).map (fun t => bytesAt mixed (4096 * t) 4096)), nans)

/-- Count what a unit's run did (R114, R115, R229). -/
def countUnit (s : State) (v : Env) (o : UnitOut) : State :=
  let s := if o.ran = 0 then s else bump (bump s K.TRW_ELEMENTS o.ran) K.TRW_OPS (o.ran * v.ops.length)
  let s := if o.masked = 0 then s else bump s K.TRW_MASKED o.masked
  let s := if o.nans = 0 then s else bump s K.NAN_OUT_TRW o.nans
  let s := if o.clamps = 0 then s else bump s K.TRW_SPLIT_CLAMPED o.clamps
  countNarrow s o.narrowed

/-- Whether every tile of some bricks can be written now: none is in motion, and the tags suffice (R84, R331). -/
def canWrite (s : State) (x : Stream) (bs : List BrickOut) : Bool :=
  let names := bs.flatMap (fun b => rangeFrom b.first b.olds.length)
  !names.any (inMotion s.tracker.streams x.d.part) &&
    decide ((names.filter (fun n => tierOfLoc (homeOf s x.d.part n) = 2)).length + s.fabric.reqs.length ≤ 16384)

/-- Write a unit's bricks and fold them into the committed-state digest (R128, R221 step 1). -/
def writeBricks (x : Stream) : List (Nat × Tile) → State → State × NameWrite
  | [], s => (s, .ok)
  | (n, t) :: rest, s =>
    match writeHop s x (sinkHop x.d) n t with
    | (s, .ok) => writeBricks x rest (plumbCopy (foldTile s x.d.part x.epoch 3 0 n t) x (n - x.d.src) t)
    | r => r

/-- A brick's tiles by name. -/
def brickPairs (b : BrickOut) : List (Nat × Tile) :=
  (List.range b.olds.length).filterMap (fun i =>
    match b.olds[i]?, b.news[i]? with
    | some t, some n => some (b.first + i, renewTile t n)
    | _, _ => none)

/-- The packed delta of a brick (R221 steps 2 and 3). -/
def brickDelta (b : BrickOut) : List Byte :=
  packBrick (List.zipWith (fun o n => bytesXor o.data n.2.data) b.olds (brickPairs b))

/-- Retire a unit (R221): write its bricks, keep and dispatch their deltas. `rows` gives the ranks to send a course's delta to. -/
def retireUnit (s : State) (x : Stream) (coded : Bool) (bs : List BrickOut) (rows : Nat → List Nat) : State × UnitEnd :=
  let packs := if coded then bs.map (fun b => ((codedCourse s x.d.part b.first).getD 0, brickDelta b)) else []
  if !canWrite s x bs then (s, .wait)
  else if !retRoom s ((packs.map (fun e => retLines e.2)).sum) then (s, .room)
  else
    match writeBricks x (bs.flatMap brickPairs) s with
    | (s, .wait) => (s, .wait)
    | (s, .fail a b) => (s, .ends a b)
    | (s, .ok) =>
      let s := packs.foldl (fun s e => if unbuilt s x.d.part e.1 then countRebuilt s x.d.part e.1 else s) s
      let s := packs.foldl (fun s e => keepDelta s x.d.part x.id e.1 x.epoch (x.pos / 16) (rows e.1) e.2 (whoOf x)) s
      (nextRound x.id (x.pos / 16) 4 s, .retired)

/-- What an update's units share. -/
def envOf (s : State) (x : Stream) (p : Params) : Env :=
  let clip := if p.useClip then (match clipOf s x.d.part x.epoch with | some c => c.value | none => 0x3F800000) else 0x3F800000
  let c := srCtx s x.d.part x.epoch x.d.tensor 0x04 0
  { ops := programOf x, scal := p.scal, clip := clip, clip2 := fMul .rne clip clip, sr := !c.reference, ctx := c, half := halfMask x.d,
    split := p.split, resid := p.resid }

/-- This block is the spare of a roll forward of its epoch (R295). -/
def rollingForward (s : State) (q : Nat) : Bool :=
  let b := str s (K.MEMBER_CMD q)
  decide (rankState s q (ownRank s q) = 2) && decide (leAt b 16 1 % 8 = 1) && decide (leAt b 8 6 = reg s (K.EPOCH q))

/-- Run one unit: read its operands, run its elements, and retire it (R210-R223). DEDUCED: log entry 36. -/
def runUnit (s : State) (x : Stream) (p : Params) (gate : Option Tile) (rows : Nat → List Nat) (ungated : Bool) : State × UnitEnd :=
  let d := x.d
  let q := d.part
  let n0 := x.pos
  let odd := n0 / 16 % 2 = 1
  let planes := List.range (planesOf d)
  let stored := storedPlanes s x p
  let coded := codedUpdate s x
  let off := fun i => !ungated && gatedTile p gate (d.src + n0 + i)
  let idle := (List.range 16).all off
  let pend := fun k => smapHas x.fetched (halfKey k 0)
  let need := planes.filter (fun k => !idle || (odd && isHalf d k && pend k))
  let span := fun k => if isHalf d k then (if odd ∧ stored.contains k then (planeFirst d k + n0 / 2 - 8, 16) else (planeFirst d k + n0 / 2, 8)) else (planeFirst d k + n0, 16)
  let g0 := tensorIndex p (d.src + n0)
  let layer := finalLayer s q (d.aux + n0)
  let gnames := if idle then [] else (rangeFrom (d.aux + n0) 16).filter (fun n => (finalLayer s q n).isNone)
  let rowsN := if idle || !uses (programOf x) 0x04 then [] else factorTiles g0 (fun g => g / max 1 p.cols)
  let colsN := if idle || !uses (programOf x) 0x05 then [] else factorTiles g0 (fun g => g % max 1 p.cols)
  let maskN := if idle || layer.isSome || decide (p.mask = nullName) then [] else maskRange p.unit g0
  let pn := need.flatMap (fun k => rangeFrom (span k).1 (span k).2)
  let names := pn.map (fun n => (true, n)) ++ (gnames ++ rowsN.map (fun i => p.row + i) ++ colsN.map (fun i => p.col + i) ++ maskN.map (fun i => p.mask + i)).map (fun n => (false, n))
  if idle && pn.isEmpty then (bump s K.TRW_GATED_BRICKS 1, .retired)
  else
    match readMixed s x names with
    | (s, .wait) => (s, .wait)
    | (s, .fail a b) => (s, .ends (if a = 0x78 ∧ !unbuilt s q b then 0x24 else a) b)
    | (s, .ok ts) =>
      let planeTs := fun k => let before := ((need.takeWhile (fun j => decide (j ≠ k))).map (fun j => (span j).2)).sum
                              if need.contains k then (ts.drop before).take (span k).2 else []
      let rest := ts.drop pn.length
      let gt := rest.take gnames.length
      let rest := rest.drop gnames.length
      let rowM := tileMap rowsN (rest.take rowsN.length)
      let rest := rest.drop rowsN.length
      let colM := tileMap colsN (rest.take colsN.length)
      let maskM := tileMap maskN (rest.drop colsN.length)
      let s := if idle then s else (rangeFrom (d.aux + n0) 16).foldl (fun s n => if (finalLayer s q n).isSome then (readLayer s q n 0 1).1 else s) s
      let grads : List Tile := (List.range 16).map (fun i =>
        match finalLayer s q (d.aux + n0 + i) with
        | some l => finalTile l (d.aux + n0 + i - l.first)
        | none => (gt[(gnames.takeWhile (fun n => decide (n ≠ d.aux + n0 + i))).length]?).getD (zeroTile 1))
      let poisoned := (ts.take pn.length).any (fun (t : Tile) => decide (t.info.poison ≠ (0 : Word64))) || (!idle && grads.any (fun (t : Tile) => decide (t.info.poison ≠ (0 : Word64)))) ||
        (!rowsN.isEmpty && factorBad rowM ((List.range 16384).map (fun i => (g0 + i) / max 1 p.cols))) ||
        (!colsN.isEmpty && factorBad colM ((List.range 16384).map (fun i => (g0 + i) % max 1 p.cols))) ||
        (!maskN.isEmpty && (List.range 16384).any (fun i => maskBad maskM ((g0 + i) / 2 ^ p.unit)))
      if poisoned then (s, .ends 0x24 n0)
      else
        let cur := fun k i => ((planeTs k)[(if isHalf d k then i / 2 + (if odd ∧ stored.contains k then 8 else 0) else i)]?).getD (zeroTile 0)
        let live := fun i j =>
          !off i &&
          (match layer with
           | some l => !maskedElem l (1024 * (d.aux + n0 + i - l.first) + j)
           | none => decide (p.mask = nullName) || maskBit maskM ((g0 + 1024 * i + j) / 2 ^ p.unit))
        let v := envOf s x p
        let v' := if reg s K.TRW_MODE = 2 then { v with ops := [] } else v
        let tiles := if idle then [] else (List.range 16).map (fun i =>
          runTile v' (elemIndex (d.src + n0 + i) 0) (fun j => factorAt rowM ((g0 + 1024 * i + j) / max 1 p.cols))
            (fun j => factorAt colM ((g0 + 1024 * i + j) % max 1 p.cols)) (live i) 1024 0
            (planes.map (fun k => planeValues d k i (cur k i))) (words32 ((grads[i]?).getD (zeroTile 1)).data |>.map BitVec.toNat))
        let es := tiles.flatten
        let ownTs := fun k => if 8 < (planeTs k).length && isHalf d k then (planeTs k).drop 8 else planeTs k
        let host := if reg s K.TRW_MODE = 2 && !idle && es.any Prod.snd then hostUnit s x v (planes.map ownTs) grads tiles
          else (s, planes.map (fun k => planeBytes d k tiles), (es.map (fun e => e.1.nans)).sum)
        let s := if reg s K.TRW_MODE ≠ 2 && es.any Prod.snd then laneChecks host.1 stTRW else host.1
        let out : UnitOut := { planes := host.2.1, ran := (es.filter Prod.snd).length,
                               masked := (es.filter (fun e => !e.2)).length - 1024 * ((List.range 16).filter off).length,
                               nans := host.2.2, clamps := (es.map (fun e => e.1.clamps)).sum,
                               narrowed := es.flatMap (fun e => e.1.narrowed) }
        let new := fun k => if idle then ((planeTs k).drop 8).map Tile.data else (out.planes[k]?).getD []
        let lost := rollingForward s q && coded && odd && !((List.range 16).all (fun i => !ungated && gatedTile p gate (d.src + n0 - 16 + i)))
        let (s, dr) := if lost && (stored.any (fun k => isHalf d k && !pend k)) then draw s else (s, 0)
        let firstHalf := fun k => if lost && !pend k then (List.range 8).map (fun t => (List.range 4096).map (fun b => Config.lostHalf dr (4096 * (8 * k + t) + b)))
                                  else if pend k then (List.range 8).map (fun t => ((smapGet x.fetched (halfKey k t)).getD (zeroTile 0)).data)
                                  else ((planeTs k).take 8).map Tile.data
        let bricks := (stored.filter (fun k => need.contains k && (!isHalf d k || odd))).map (fun k =>
          if isHalf d k then { plane := k, first := (span k).1, olds := planeTs k, news := firstHalf k ++ new k : BrickOut }
          else { plane := k, first := (span k).1, olds := planeTs k, news := new k })
        match (if working s then retireUnit s x coded bricks rows else (s, .wait)) with
        | (s, .retired) =>
          let s := if idle then bump s K.TRW_GATED_BRICKS 1
            else countUnit s v (if reg s K.TRW_MODE = 2 then { out with ran := 0 } else out)
          let halves := if odd then [] else stored.filter (isHalf d)
          let keep' := fun (m : SMap Tile) => halves.foldl (fun m k => (List.range 8).foldl (fun m t =>
            smapPut m (halfKey k t) (mkTile (((new k)[t]?).getD []) 0 4096 0)) m) m
          (updStream s x.id (fun y => { y with fetched := if odd then smapEraseRun y.fetched (halfKey 0 0) (halfKey 8 0) else if idle then y.fetched else keep' y.fetched }), .retired)
        | r => r

/-- A tile of rank r's block, through its window and its aperture, which begins where this block's does; kept under `key`. None
while it is awaited. -/
def fetchRank (s : State) (x : Stream) (r name key : Nat) : State × Option Tile :=
  match findStream s x.id with
  | none => (s, none)
  | some y =>
    match smapGet y.fetched key with
    | some t => (s, some t)
    | none =>
      if y.asked.contains key then (s, none)
      else
        match memberEntry s x.d.part r with
        | none => (s, none)
        | some e =>
          match sendLoad s x.d.part (e % 256) (name - reg s (K.APERTURE_FIRST x.d.part) % 2 ^ 48) (.read x.id key) (whoOf x) with
          | (s, .sent) => (updStream s x.id (fun y => { y with asked := key :: y.asked }), none)
          | (s, _) => (s, none)

/-- The headers of every live row of a course, by row; none while one is awaited (R305). -/
def rowHeaders (s : State) (x : Stream) (c : Nat) : List Nat → State × Option (List (Nat × Header × Bool))
  | [] => (s, some [])
  | j :: t =>
    let h := holderOf s x.d.part c j
    let r := fetchRank s x h (headerName s x.d.part c) (rankKey h (headerName s x.d.part c))
    match rowHeaders r.1 x c t, r.2 with
    | (s, some l), some tile =>
      (s, some ((j, headerOf (bytesAt tile.data (headerOff s x.d.part c) 64), tileBad tile (headerOff s x.d.part c / 64)) :: l))
    | (s, _), _ => (s, none)

/-- The headers of several courses. -/
def courseHeaders (s : State) (x : Stream) : List Nat → State × Option (List (Nat × List (Nat × Header × Bool)))
  | [] => (s, some [])
  | c :: t =>
    match rowHeaders s x c (liveRows s x.d.part c) with
    | (s, none) => ((courseHeaders s x t).1, none)
    | (s, some l) =>
      match courseHeaders s x t with
      | (s, some m) => (s, some ((c, l) :: m))
      | (s, none) => (s, none)

/-- A row records this block's brick of the epoch as NEW. -/
def rowNew (e own : Nat) (h : Header × Bool) : Bool := h.1.crcOk && !h.1.stale && !h.2 && decide (h.1.epoch = e) && h.1.applied.testBit own

/-- Decode this block's own bricks from preferred rows, those still unbuilt: false while one is under way. -/
def decodeOwn (s : State) (q : Nat) : List (Nat × List Nat) → State × Option (Option Nat)
  | [] => (s, some none)
  | (c, rows) :: t =>
    if !unbuilt s q c then decodeOwn s q t
    else
      match startRepairBy s q c (ownRank s q) fullMask false rows false with
      | (s, .breached) => (s, some (some c))
      | (s, _) => if unbuilt s q c then (s, none) else decodeOwn s q t

/-- Write a held decode over the whole of this block's brick, counted where the brick was not built. -/
def writeOld (s : State) (r : Repair) (w : Who) : State × Bool :=
  let key := (r.part, r.course)
  let was := s.members.rebuilt.contains key
  match writeDecoded { s with members := { s.members with rebuilt := s.members.rebuilt.filter (fun k => decide (k ≠ key)) } } r w with
  | (t, ok) => (if was then { t with members := { t.members with rebuilt := key :: t.members.rebuilt } } else if ok then countRebuilt t r.part r.course else t, ok)

/-- Decode the bricks of a unit at OLD from preferred rows and write them, also one that a read has rebuilt at NEW (R305, second class). -/
def decodeOld (s : State) (x : Stream) : List (Nat × List Nat) → State × Option (Option Nat)
  | [] => (s, some none)
  | (c, rows) :: t =>
    let q := x.d.part
    let done := match findStream s x.id with | some y => smapHas y.fetched (oldKey c) | none => false
    if done then decodeOld s x t
    else
      match startRepairBy s q c (ownRank s q) fullMask false rows true with
      | (s, .breached) => (s, some (some c))
      | (s, .waiting) => (s, none)
      | (s, .done r) =>
        match writeOld s r (whoOf x) with
        | (s, false) => (s, none)
        | (s, true) =>
          decodeOld (updStream (dropRepair s q c (ownRank s q) true) x.id (fun y => { y with fetched := smapPut y.fetched (oldKey c) (zeroTile 0) })) x t

/-- Send NEW ⊕ OLD to the rows that lack it (R305, third class): OLD is decoded and held, NEW is what the home holds by now. False while a
decode is under way. -/
def finishRows (s : State) (x : Stream) : List (Nat × List Nat × List Nat) → State × Bool
  | [] => (s, true)
  | (c, clear, all) :: t =>
    let q := x.d.part
    if clear = [] ∨ (findKept s q 0 c x.epoch).isSome then finishRows s x t
    else
      match startRepairBy s q c (ownRank s q) fullMask false clear true with
      | (s, .done r) =>
        match decodeOwn s q [(c, all)] with
        | (s, some none) =>
          match readBrickTiles s q (whoOf x) (rangeFrom (brickName s q c) 16) with
          | (s, some ts) =>
            let old := (List.range 16).map (fun i => bytesAt r.sum (4096 * i) 4096)
            let b := packBrick (List.zipWith bytesXor old (ts.map Tile.data))
            let s := keepDelta (dropRepair s q c (ownRank s q) true) q x.id c x.epoch (x.pos / 16) (clear.map (holderOf s q c)) b (whoOf x)
            finishRows (nextRound x.id (x.pos / 16) 4 s) x t
          | (s, none) => (s, false)
        | (s, _) => (s, false)
      | (s, _) => (s, false)

/-- Fold the rebuilt bricks of a unit into the committed-state digest (R128). -/
def foldBricks (s : State) (x : Stream) (cs : List Nat) : State :=
  cs.foldl (fun s c => (rangeFrom (brickName s x.d.part c) 16).foldl (fun s n =>
    let r := readLoc s (homeOf s x.d.part n) (whoOf x) true (identName n)
    plumbCopy (foldTile r.1 x.d.part x.epoch 3 0 n r.2.tile) x (n - x.d.src) r.2.tile) s) s

/-- The courses of a unit's bricks, a 16-bit brick's with the second of its units (R221). -/
def unitCourses (s : State) (x : Stream) : List Nat :=
  distinct (((List.range (planesOf x.d)).filter (fun k => !isHalf x.d k || decide (x.pos / 16 % 2 = 1))).filterMap (fun k =>
    codedCourse s x.d.part (planeSpan x.d k x.pos 16).1))

/-- One unit of the spare's update in a roll forward (R305, R306, R311). -/
def spareUnit (s : State) (x : Stream) (p : Params) (gate : Option Tile) : State × UnitEnd :=
  let q := x.d.part
  let own := ownRank s q
  let cs := unitCourses s x
  match courseHeaders s x cs with
  | (s, none) => (s, .wait)
  | (s, some hs) =>
    let isNew := hs.map (fun e => (e.1, e.2.map (fun r => (r.1, rowNew x.epoch own r.2))))
    let anyNew := isNew.any (fun e => e.2.any Prod.snd)
    let round1 := isNew.all (fun e => (e.2.headD (0, false)).2)
    let allNew := isNew.all (fun e => e.2.all Prod.snd)
    let news := fun (e : Nat × List (Nat × Bool)) => (e.2.filter Prod.snd).map Prod.fst
    let clear := fun (e : Nat × List (Nat × Bool)) => (e.2.filter (fun r => !r.2)).map Prod.fst
    if !anyNew then runUnit s x p gate (liveHolders s q) false
    else if round1 then
      match finishRows s x (isNew.map (fun e => (e.1, if allNew then [] else clear e, news e))) with
      | (s, false) => (s, .wait)
      | (s, true) =>
        match decodeOwn s q (isNew.map (fun e => (e.1, news e))) with
        | (s, none) => (s, .wait)
        | (s, some (some c)) => (s, .ends 0x78 c)
        | (s, some none) => (foldBricks s x cs, .retired)
    else
      match isNew.find? (fun e => decide (e.2.length < 2)) with
      | some e => (cs.foldl (fun s c => splitCourse s q c) s, .ends 0x79 e.1)
      | none =>
        match decodeOld s x (isNew.map (fun e => (e.1, (e.2.drop 1).map Prod.fst))) with
        | (s, none) => (s, .wait)
        | (s, some (some c)) => (s, .ends 0x78 c)
        | (s, some none) =>
          runUnit s x p gate (fun c => match isNew.find? (fun e => decide (e.1 = c)) with | some e => (clear e).map (holderOf s q c) | none => liveHolders s q c) true

/-- Run units until one waits or the update ends. `mark` is 2 while a unit waits for retention room. -/
def trwLoop (sid : Nat) : Nat → State → State
  | 0, s => s
  | fuel + 1, s =>
    match findStream s sid with
    | none => s
    | some x =>
      match smapGet x.fetched paramKey with
      | none => s
      | some t =>
        if x.pos = x.d.count then trwEnd s sid 0 0
        else
          let gate := smapGet x.fetched gateKey
          let r := if codedUpdate s x && rollingForward s x.d.part then spareUnit s x (paramsOf t) gate
            else runUnit s x (paramsOf t) gate (liveHolders s x.d.part) false
          match r with
          | (s, .wait) => s
          | (s, .room) => updStream s sid (fun y => { y with mark := 2 })
          | (s, .ends a b) => trwEnd s sid a (if a = 0x24 then x.pos else failDetail s sid a b)
          | (s, .retired) =>
            trwLoop sid fuel (updStream s sid (fun y => { y with pos := y.pos + 16, tilesDone := y.tilesDone + 16, mark := 1,
                                                                 fetched := y.fetched.filter (fun e => decide (e.1 < 2 ^ 51)) }))

/-- The ranges that an update reads or writes. -/
def operandRanges (x : Stream) (p : Params) : List (Nat × Nat) :=
  (List.range (planesOf x.d)).map (fun k => (planeFirst x.d k, planeTiles x.d k)) ++
    [(x.d.aux, x.d.count), (x.d.dst, 1), (p.row, if p.row = nullName then 0 else ceilDiv (tensorIndex p (x.d.src + x.d.count) / max 1 p.cols + 1) 1024),
     (p.col, if p.col = nullName then 0 else ceilDiv p.cols 1024), (p.mask, if p.mask = nullName then 0 else ceilDiv (tensorIndex p (x.d.src + x.d.count) / 2 ^ p.unit + 1) 32768)]

/-- An earlier update of the partition that writes a tile this one reads or writes has not ended (R220). -/
def updateBlocked (s : State) (x : Stream) (p : Params) : Bool :=
  let mine := operandRanges x p
  s.tracker.streams.any (fun y => y.taken && y.finish.isNone && decide (y.d.opcode = 0x61 ∧ y.d.part = x.d.part ∧ y.id < x.id) &&
    (List.range (planesOf y.d)).any (fun k =>
      (match smapGet y.fetched paramKey with | some t => (storedPlanes s y (paramsOf t)).contains k | none => true) &&
        mine.any (fun r => overlaps r.1 r.2 (planeFirst y.d k) (planeTiles y.d k))))

/-- TRW_UPDATE (R205-R226, R270, R271). `mark` is 1 once its checks are passed. -/
def execTrwUpdate (sid : Nat) (s : State) : Host.Outcome State Fault Refusal :=
  whenWorking s (onStream s sid 0x61 (fun s x =>
    let go := fun (s : State) (x : Stream) (p : Params) =>
      if (codedUpdate s x && !s.mixer.released.contains (x.d.part, 1, x.epoch)) || updateBlocked s x p then s
      else trwLoop sid (x.d.count / 16 + 1) s
    if x.mark ≠ 0 then (match smapGet x.fetched paramKey with | some t => go s x (paramsOf t) | none => s)
    else if programOf x = [] then trwEnd s sid 0x68 0xFF
    else
      match planeOffends s x with
      | some k => trwEnd s sid 0x6A k
      | none =>
        let have' : State × NameRead := match smapGet x.fetched paramKey with | some t => (s, .ok t) | none => readName s x x.d.dst
        match have' with
        | (s, .wait) => s
        | (s, .fail a b) => trwEnd s sid a (failDetail s sid a b)
        | (s, .ok t) =>
          let s := updStream s sid (fun y => { y with fetched := smapPut y.fetched paramKey t })
          let p := paramsOf t
          if t.info.poison ≠ 0 then trwEnd s sid 0x24 0
          else
            match updateOffends s x p with
            | some (a, b) => trwEnd s sid a b
            | none =>
              let readGate : State × Option NameRead := if !p.gated then (s, none)
                else match smapGet x.fetched gateKey with
                  | some g => (s, some (.ok g))
                  | none => let r := readName s x (reg s (K.XP_COUNTS_BASE p.plan) % 2 ^ 48 + 4); (r.1, some r.2)
              match readGate with
              | (s, some .wait) => s
              | (s, some (.fail _ _)) => trwEnd s sid 0x24 0
              | (s, g) =>
                let gate := match g with | some (.ok g) => some g | _ => none
                let s := match gate with | some g => updStream s sid (fun y => { y with fetched := smapPut y.fetched gateKey g }) | none => s
                match clipOffends s x p gate with
                | some (a, b) => trwEnd s sid a b
                | none =>
                  let s := trwEnter s sid
                  match findStream s sid with
                  | none => s
                  | some x =>
                    if 1 < x.ordinal then trwEnd s sid ((x.ordinal - 2) / 2 ^ 32) ((x.ordinal - 2) % 2 ^ 32)
                    else go (updStream s sid (fun y => { y with mark := 1 })) { x with mark := 1 } p))

end Sys2Proof.Machine
end

