-- ==== Sys2Proof/Machine/Dest.lean ====
section
/-! DEFINITION. The ranges that a descriptor writes, by opcode, and the descriptors bound to the epoch (R40, R257, R264). -/
namespace Sys2Proof.Machine

/-- The tiles that a sink receives for `n` source tiles (R46). -/
def sinkTiles (d : Desc) (n : Nat) : Nat := if narrows d then n / convN d else if widens d then n * convN d else n

/-- The last hop names tiles of the partition. -/
def sinkNamed (d : Desc) : Bool := [stHOM, stSST, stMP].contains (sinkHop d)

/-- Output tiles of a merge within its capacity (R140). -/
def mergeTiles (d : Desc) : Nat :=
  let v := 4096 / elemCount d.format
  let parts := if d.format = 6 then 0 else if d.arg % 4 = 2 then 1 else 2
  d.arg / 256 * (4 + parts * v)

/-- The ranges of names that a descriptor writes, as (first, count). Trough names reach no home (R159), and are no destination in R40's sense.
DESIGN CHOICE: log entry 99. -/
def destRanges (s : State) (d : Desc) : List (Nat × Nat) :=
  let one := fun n => if sinkNamed d then [(d.dst, n)] else []
  let o := d.opcode
  if o = 0x01 then one (sinkTiles d d.count)
  else if o = 0x13 then [(d.dst, ceilDiv d.count 512)]
  else if o = 0x30 then one (mergeTiles d)
  else if o = 0x31 then one (ceilDiv (d.scalar % 2 ^ 32) (64 / 2 ^ (d.arg % 8)))
  else if o = 0x32 then one (d.scalar / 2 ^ 32)
  else if o = 0x33 then
    let p := planOf (planText s (d.arg % 16))
    one p.dest ++ [(d.scalar % 2 ^ 48, ceilDiv (p.dest * (64 / 2 ^ p.code)) 1024), (p.counts, 5)]
  else if o = 0x34 then
    let p := planOf (planText s (d.arg % 16))
    one (ceilDiv (d.arg / 256 * p.topk) (64 / 2 ^ p.code))
  else if o = 0x44 then one (sinkTiles d d.count)
  else if o = 0x50 then one (shardTiles d.count (max 1 (groupN s d.part)) (groupRank s d.part))
  else if o = 0x52 then one d.count
  else if o = 0x53 then one 1
  else if o = 0x61 then (List.range (planesOf d)).map (fun k => (planeFirst d k, planeTiles d k))
  else if o = 0x73 then one d.count
  else []

/-- A descriptor's destination overlaps a range. -/
def writesInto (s : State) (d : Desc) (first n : Nat) : Bool := (destRanges s d).any (fun r => overlaps r.1 r.2 first n)

/-- The kinds of work that a commit holds back (R257). -/
def boundKind (d : Desc) : Bool :=
  [0x21, 0x24, 0x28, 0x33, 0x40, 0x41, 0x42, 0x43, 0x44, 0x45, 0x50, 0x51, 0x52, 0x53, 0x61, 0x70, 0x71, 0x72].contains d.opcode ||
    (decide (d.opcode = 0x01) && decide (0 < plumbHops d))

/-- The kinds whose acceptance begins the backward phase (R254). -/
def backwardKind (d : Desc) : Bool := decide (d.opcode = 0x22 ∨ (0x50 ≤ d.opcode ∧ d.opcode ≤ 0x53)) || accumulates d

end Sys2Proof.Machine
end

