-- ==== Sys2Proof/Machine/Mix.lean ====
section
/-! DEFINITION. The mixer's descriptors and the advance of the epoch (R254-R283, R307): sealing, the commit, the ledger, and the
start of row encodes. -/
namespace Sys2Proof.Machine

/-- A refusal decided at acceptance: `ordinal` is 0 while undecided, 1 when the descriptor may run, 2 + status × 2^32 + DETAIL otherwise. -/
def judge (s : State) (sid status detail : Nat) : State :=
  updStream s sid (fun y => { y with ordinal := 2 + status * 2 ^ 32 + detail % 2 ^ 32 })

/-- The refusal decided, if any. -/
def judgement (x : Stream) : Option (Nat × Nat) :=
  if 1 < x.ordinal then some ((x.ordinal - 2) / 2 ^ 32, (x.ordinal - 2) % 2 ^ 32) else none

/-- The descriptor may run. -/
def letIn (s : State) (sid : Nat) : State := updStream s sid (fun y => { y with ordinal := 1 })

/-- Enter a phase by its event; a phase is entered only forward, and a halted partition stays halted (R254, R287). -/
def phaseBy (s : State) (q v : Nat) : State := raisePhase s q v

/-- The gradient range in names. -/
def gradNames (s : State) (q : Nat) : Nat := 16 * gradCourses s q

/-- What STR and the mixer decide when a seal or commit descriptor is accepted, or leaves the hold (R254, R264, R265, R271). -/
def mixAccept (s : State) (sid : Nat) : State :=
  match findStream s sid with
  | none => s
  | some x =>
    let q := x.d.part
    if x.hold ≠ 0 ∨ x.ordinal ≠ 0 then s
    else if x.d.opcode = 0x70 then
      if s.mixer.doneSeal.contains q then judge s sid 0x70 (reg s (K.STEP_PHASE q))
      else if x.d.src % 16 ≠ 0 ∨ x.d.count % 16 ≠ 0 ∨ within x.d.src x.d.count (gradFirst s q) (gradNames s q) = false then judge s sid 0x71 1
      else if (listOf s q).any (fun e => e.isSeal && overlaps x.d.src x.d.count e.first e.names) then judge s sid 0x71 2
      else if 16384 ≤ (listOf s q).length then judge s sid 0x74 0
      else letIn (enterRanges s q sid true [(x.d.src, x.d.count)]) sid
    else if x.d.opcode = 0x71 then
      if s.mixer.doneSeal.contains q then judge s sid 0x70 (reg s (K.STEP_PHASE q))
      else letIn (phaseBy { s with mixer := { s.mixer with doneSeal := q :: s.mixer.doneSeal } } q 3) sid
    else if x.d.opcode = 0x72 then letIn (phaseBy s q 5) sid
    else s

/-- Streams of a partition, accepted before this one and not completed, that satisfy `p`. -/
def earlier (s : State) (x : Stream) (p : Stream → Bool) : Bool :=
  s.tracker.streams.any (fun y => y.taken && y.finish.isNone && decide (y.d.part = x.d.part ∧ y.id < x.id) && p y)

/-- Fold a brick's tiles into the sealed-gradient digest up to the first poisoned one (R128, R129, R264). -/
def foldSeal (x : Stream) : List (Nat × Tile) → State → State
  | [], s => s
  | (n, t) :: rest, s =>
    let s := plumbCopy (foldTile s x.d.part x.epoch 2 0 n t) x (n - gradFirst s x.d.part) t
    if t.info.poison = 0 then foldSeal x rest s else s

/-- What sealing a course comes to. -/
inductive SealEnd where
  | sealed
  | wait
  | ends (status detail : Nat)
  deriving DecidableEq, Repr

/-- Seal one gradient course (R264). DEDUCED: log entry 41. -/
def sealCourse (s : State) (x : Stream) (c : Nat) : State × SealEnd :=
  let q := x.d.part
  if !isData s q c (ownRank s q) then (s, .sealed)
  else
    let names := rangeFrom (brickName s q c) 16
    match readNames s x names with
    | (s, .wait) => (s, .wait)
    | (s, .fail a b) => (s, .ends a (if a = 0x23 ∨ a = 0x78 then b else x.mark))
    | (s, .ok ts) =>
      let s := foldSeal x (names.zip ts) s
      if ts.any (fun t => decide (t.info.poison ≠ 0)) then (s, .ends 0x24 x.mark)
      else
        let made := if reg s K.MIX_MODE = 2 then
            let h := hostWork s (whoOf x) (ts.map Tile.data) 65536
            (h.1, (List.range 16).map (fun i => bytesAt h.2 (4096 * i) 4096))
          else (s, ts.map Tile.data)
        (updStream (sendGradient made.1 q x.id c x.epoch (packBrick made.2) (whoOf x)) x.id (fun y => { y with mark := y.mark + 1 }), .sealed)

/-- Seal the gradient courses `from', from'+1, …` that `skip` does not name; `pos` counts those passed. -/
def sealLoop (sid first : Nat) (skip : State → Nat → Bool) : Nat → State → State × SealEnd
  | 0, s => (s, .sealed)
  | fuel + 1, s =>
    match findStream s sid with
    | none => (s, .wait)
    | some x =>
      let c := codedCourses s x.d.part + first + x.pos
      let r := if skip s c then (s, SealEnd.sealed) else sealCourse s x c
      match r with
      | (s, .sealed) => sealLoop sid first skip fuel (updStream s sid (fun y => { y with pos := y.pos + 1 }))
      | r => r

/-- Gradient bricks of a stream, or of a partition, that some holder has not acknowledged. -/
def owedBy (s : State) (sid : Nat) : Bool := s.mixer.kept.any (fun k => decide (k.kind = 1 ∧ k.sid = sid))
def gradOwed (s : State) (q : Nat) : Bool := s.mixer.kept.any (fun k => decide (k.kind = 1 ∧ k.part = q))

/-- MIX_SEAL: wait for the earlier writers of its range, seal its courses in order, and wait for every acknowledgement (R264). -/
def sealRun (s : State) (x : Stream) : State :=
  match judgement x with
  | some (a, b) => endStream s x.id a b
  | none =>
    if x.ordinal ≠ 1 ∨ earlier s x (fun y => writesInto s y.d x.d.src x.d.count) then s
    else
      match sealLoop x.id ((x.d.src - gradFirst s x.d.part) / 16) (fun _ _ => false) (x.d.count / 16 - x.pos) s with
      | (s, .wait) => s
      | (s, .ends a b) => endStream s x.id a b
      | (s, .sealed) =>
        match findStream s x.id with
        | some y => if owedBy s x.id then s else endStream s x.id 0 y.mark
        | none => s

/-- DETAIL of COMMIT_REFUSED, where a holder has refused (R282). -/
def refusalOf (s : State) (q : Nat) : Option Nat := (s.mixer.refusal.find? (fun r => decide (r.1 = q))).map (fun r => r.2.1 + r.2.2 * 256)

/-- MIX_SEAL_DONE ends other than COMPLETED: the phase returns to BWD, from COMMIT too where MIX_COMMIT is accepted already (R265). -/
def sealFails (s : State) (x : Stream) (status detail : Nat) : State :=
  let s := if reg s (K.STEP_PHASE x.d.part) = 6 then s else setPhase s x.d.part 2
  endStream s x.id status detail

/-- A MIX_SEAL of the partition still seals, or a MIX_ENCODE still encodes (R265, R307). -/
def sealHeld (s : State) (q : Nat) : Bool :=
  s.tracker.streams.any (fun y => y.taken && y.finish.isNone && decide (y.d.part = q ∧ y.hold = 0 ∧ (y.d.opcode = 0x70 ∨ y.d.opcode = 0x75)))

/-- Names of the two ledger tiles. -/
def ledgerName (s : State) (q slot : Nat) : Nat := reg s (K.LEDGER_FIRST q) % 2 ^ 48 + slot

/-- Both ledger tiles are homed in the yard. -/
def ledgerHomed (s : State) (q : Nat) : Bool := yardHomed s q (ledgerName s q 0) 2

/-- The ledger's words (R275). -/
structure Ledger where
  step : Nat
  layout : Nat
  seed : Nat
  id : Nat
  ranks : Nat
  opt : Nat
  sched : Nat
  map : Nat
  pos : List Nat
  crcOk : Bool
  deriving DecidableEq, Repr

/-- A ledger from its 512 bytes. -/
def ledgerOf (b : List Byte) : Ledger :=
  { step := leAt b 0 8 % 2 ^ 48, layout := leAt b 6 2, seed := leAt b 8 8, id := leAt b 16 4, ranks := leAt b 20 4 % 64, opt := leAt b 24 8,
    sched := leAt b 32 8, map := leAt b 40 8 % 2 ^ 48, pos := (List.range 32).map (fun r => leAt b (64 + 8 * r) 8),
    crcOk := decide (leAt b 508 4 = crc32c (bytesAt b 0 508)) }

/-- The 512 bytes of a ledger. -/
def ledgerBytes (l : Ledger) : List Byte :=
  let b := natLe 6 l.step ++ natLe 2 l.layout ++ natLe 8 l.seed ++ natLe 4 l.id ++ natLe 4 l.ranks ++ natLe 8 l.opt ++ natLe 8 l.sched ++ natLe 8 l.map ++
    zeros 16 ++ (l.pos.take 32).flatMap (natLe 8) ++ zeros (8 * (32 - l.pos.length)) ++ zeros 188
  b ++ natLe 4 (crc32c b)

/-- The bytes of a ledger tile, where none of its eight lines is poisoned. -/
def ledgerPeek (s : State) (q slot : Nat) : Option (List Byte) :=
  let n := ledgerName s q slot
  (List.range 8).foldl (fun acc j =>
    match acc, structBytes s q n (64 * j) 64 with
    | some a, some b => some (a ++ b)
    | _, _ => none) (some [])

/-- The current ledger, where it can be read. -/
def currentLedger (s : State) (q : Nat) : Option Ledger := (ledgerPeek s q (reg s (K.LEDGER_SLOT q))).map ledgerOf

/-- Write a ledger into one of its tiles. -/
def putLedger (s : State) (q slot : Nat) (l : Ledger) : State :=
  match slotOf s q (ledgerName s q slot) with
  | some k => writeSlot s k (mkTile (ledgerBytes l ++ zeros 3584) 0 4096 0) (arrivalWho s q)
  | none => s

/-- Write a ledger into the tile that is not current, and switch (R276). -/
def switchLedger (s : State) (q : Nat) (l : Ledger) : State :=
  let other := 1 - reg s (K.LEDGER_SLOT q)
  setReg (putLedger s q other l) (K.LEDGER_SLOT q) other

/-- A rank's ledger record of an epoch. -/
def recordFrom (s : State) (q r e : Nat) : Option LedgerRec := s.mixer.ledgers.find? (fun l => decide (l.part = q ∧ l.rank = r ∧ l.epoch = e))

/-- Keep a ledger record in place of its rank's earlier one. -/
def putRecord (s : State) (l : LedgerRec) : State :=
  { s with mixer := { s.mixer with ledgers := s.mixer.ledgers.filter (fun x => decide (¬ (x.part = l.part ∧ x.rank = l.rank))) ++ [l] } }

/-- The ranks from which a ledger can be copied, ascending (R296). -/
def copySources (s : State) (q : Nat) : List Nat := (ranksIn s q 0).filter (fun r => decide (r ≠ ownRank s q))

/-- Go on to the next LIVE rank: a copy has failed (R296). -/
def copyNext (s : State) (q : Nat) : State :=
  let l := copySources s q
  let r := (smapGet s.members.copyFrom q).getD 0
  let next := (l.find? (fun x => decide (r < x))).getD (l.headD 0)
  { s with members := { s.members with copyFrom := smapPut s.members.copyFrom q next, copies := smapEraseRun s.members.copies (2 * q) (2 * q + 2) } }

/-- Load the ledger tiles that are still to come from the rank in turn. -/
def copyTry (s : State) (q : Nat) : State :=
  match smapGet s.members.copyFrom q with
  | none => s
  | some r =>
    let slots := [0, 1].filter (fun i => !smapHas s.members.copies (2 * q + i) && !s.fabric.reqs.any (fun x => decide (x.use = .ledger q i)))
    match memberEntry s q r with
    | none => copyNext s q
    | some e =>
      slots.foldl (fun s i =>
        match sendLoad s q (e % 256) (ledgerName s q i - reg s (K.APERTURE_FIRST q) % 2 ^ 48) (.ledger q i) (arrivalWho s q) with
        | (s, .refused) => copyNext s q
        | (s, _) => s) s

/-- Begin to copy the current ledger from the lowest LIVE rank (R296, R388). -/
def startCopy (s : State) (q : Nat) : State :=
  if smapHas s.members.copyFrom q then s
  else
    match copySources s q with
    | [] => s
    | r :: _ => copyTry { s with members := { s.members with copyFrom := smapPut s.members.copyFrom q r } } q

/-- The rank under which a block files its own record. -/
def selfRank (s : State) (q : Nat) : Nat := if hasWythe s q then ownRank s q else 0

/-- Set a brick of this block to zero (R244, R266). -/
def zeroBrick (s : State) (q c : Nat) (w : Who) : State × Bool :=
  writeBrickTiles s q w ((rangeFrom (brickName s q c) 16).map (fun n => (n, mkTile (zeros 4096) 0 4096 0)))

/-- Ask a data member for its brick of a course (R307). -/
def sendEncodeReq (s : State) (q c r epoch : Nat) : State :=
  sendRank s q r { pkt0 with type := 0x13, w4 := wyWord s q (ownRank s q) 0 0, w5 := BitVec.ofNat 64 (ownCourse s q c % 2 ^ 44), w6 := BitVec.ofNat 64 epoch } [] (arrivalWho s q)

/-- Set the row this block holds in a course to zero and write its header, as one step: where either cannot be written, nothing stored
changes (R242, R244, R266). -/
def blankBrick (s : State) (q c : Nat) (h : Header) (w : Who) : State × Bool :=
  match brickReady s q c w with
  | (s, false) => (s, false)
  | (s, true) =>
    if brickMoving s q c then (s, false)
    else
      let mem := s.mem
      match zeroBrick s q c w with
      | (s, false) => ({ s with mem := mem }, false)
      | (s, true) =>
        match writeHeader s q c h w with
        | (s, false) => ({ s with mem := mem }, false)
        | (s, true) => (brickUsed s q c, true)

/-- Put an encode in the list in place of its course's. -/
def listEncode (s : State) (e : Encode) : State :=
  { s with mixer := { s.mixer with encodes := s.mixer.encodes.filter (fun x => decide (¬ (x.part = e.part ∧ x.course = e.course))) ++ [e] } }

/-- Begin an encode once its brick and header can be written: then every data member is asked for its brick, but not after this block's
arrival at the seal barrier (R307). -/
def tryEncode (s : State) (e : Encode) : State :=
  match rowOf s e.part e.course (ownRank s e.part) with
  | none => s
  | some j =>
    match blankBrick s e.part e.course (freshHeader s e.part e.course j ((e.epoch + 2 ^ 48 - 1) % 2 ^ 48)) (arrivalWho s e.part) with
    | (s, false) => s
    | (s, true) =>
      let s := listEncode s { e with begun := true }
      if s.mixer.arrived.contains (e.part, 1, e.epoch) then s
      else (dataRanks s e.part e.course).foldl (fun s r => sendEncodeReq s e.part e.course r e.epoch) s

/-- Begin the encode of the row this block holds in course c, at the partition's epoch (R307). -/
def startEncode (s : State) (q c : Nat) (sid : Option Nat) : State :=
  if (rowOf s q c (ownRank s q)).isNone then s
  else
    let e : Encode := { part := q, course := c, epoch := reg s (K.EPOCH q), owed := dataRanks s q c, sid := sid, begun := false, stopped := false }
    tryEncode (listEncode s e) e

/-- Try again to begin the encodes that have not begun. -/
def retryEncodes (s : State) (q : Nat) : State :=
  (s.mixer.encodes.filter (fun e => decide (e.part = q ∧ e.epoch = reg s (K.EPOCH q)) && !e.begun && !e.stopped)).foldl tryEncode s

/-- Zero a gradient mortar brick and begin it for epoch e (R266). -/
def restartGradient (s : State) (q c j e : Nat) (w : Who) : State × Option Header :=
  let h := freshHeader s q c j e
  match blankBrick s q c h w with
  | (s, true) => (s, some h)
  | (s, false) => (s, none)

/-- Ask every data member for its gradient brick again (R266). -/
def sendResendReqs (s : State) (q c e : Nat) : State :=
  let s := (dataRanks s q c).foldl (fun s r =>
    bump (sendRank s q r { pkt0 with type := 0x12, w4 := wyWord s q (ownRank s q) 0 0, w5 := BitVec.ofNat 64 (ownCourse s q c % 2 ^ 44), w6 := BitVec.ofNat 64 e } [] (arrivalWho s q))
      K.SEAL_RESEND_REQS 1) s
  if s.mixer.resend.contains (q, c) then s else { s with mixer := { s.mixer with resend := (q, c) :: s.mixer.resend } }

/-- Restart the gradient mortar bricks of the epoch whose headers are no longer sound (R266). -/
def mendGradients (s : State) (q e : Nat) : State :=
  ((s.mixer.begun.filter (fun b => decide (b.1 = q) && !s.mixer.resend.contains b)).map Prod.snd).foldl (fun s c =>
    match rowOf s q c (ownRank s q), brickReady s q c (arrivalWho s q) with
    | some j, (s, true) =>
      let r := readHeader s q c (arrivalWho s q)
      let sound := match r.2 with | some h => headerAgrees s q c h && decide (h.epoch = e ∧ h.mapEpoch = reg s (K.MAP_EPOCH q)) | none => false
      if sound then brickUsed r.1 q c
      else
        match restartGradient r.1 q c j e (arrivalWho s q) with
        | (s, some _) => sendResendReqs s q c e
        | (s, none) => s
    | _, (s, _) => s) s

/-- MIX_SEAL_DONE: seal what no MIX_SEAL named, and arrive at the seal barrier (R264-R266), a spare once its ready flag is acknowledged
(R304). -/
def sealDoneRun (s : State) (x : Stream) : State :=
  let q := x.d.part
  match judgement x with
  | some (a, b) => endStream s x.id a b
  | none =>
    match refusalOf s q with
    | some d => sealFails s x 0x77 d
    | none =>
      if x.ordinal ≠ 1 ∨ earlier s x (fun y => writesInto s y.d (gradFirst s q) (gradNames s q)) then s
      else
        let named := fun (s : State) c => (listOf s q).any (fun e => e.isSeal && decide (e.first ≤ brickName s q c ∧ brickName s q c < e.first + e.names))
        match sealLoop x.id 0 named (gradCourses s q - x.pos) s with
        | (s, .wait) => s
        | (s, .ends a b) => sealFails s x a b
        | (s, .sealed) =>
          let s := mendGradients s q x.epoch
          if gradOwed s q || s.mixer.resend.any (fun r => decide (r.1 = q)) || sealHeld s q || s.members.readyOwed.any (fun r => decide (r.1 = q)) then s
          else barrierArriveOwn s q 1 x.epoch

/-- Rows this block holds in a range of coded courses. -/
def rowsIn (s : State) (q first n : Nat) : List Nat := (rangeFrom first n).filter (fun c => (rowOf s q c (ownRank s q)).isSome)

/-- Courses of a spare that the pass still has to rebuild. -/
def unbuiltIn (s : State) (q first n : Nat) : List Nat :=
  (rangeFrom first n).filter (fun c => unbuilt s q c && !s.members.breached.contains (q, c))

/-- Note the epoch in which the pass over a spare's data bricks has ended (R301 step 3). -/
def notePass (s : State) (q : Nat) : State :=
  if decide (rankState s q (ownRank s q) = 2 ∧ reg s (K.RB_STATE q) = 2) && !smapHas s.members.passEnd q && unbuiltIn s q 0 (codedCourses s q) = [] then
    { s with members := { s.members with passEnd := smapPut s.members.passEnd q (reg s (K.EPOCH q)) } }
  else s

/-- The spare's rows are all encoded in the epoch: unless it has arrived at the seal barrier already, it raises the ready flag (R301, R304). -/
def spareReady (s : State) (q : Nat) : State :=
  let e := reg s (K.EPOCH q)
  let own := ownRank s q
  if rankState s q own ≠ 2 ∨ reg s (K.RB_STATE q) ≠ 3 ∨ s.mixer.encodes.any (fun x => decide (x.part = q)) ∨ rankReady s q own ∨
      s.mixer.arrived.contains (q, 1, e) then s
  else
    let s := setReg { s with members := { s.members with ready := (q, own, e) :: s.members.ready,
                                                         readyOwed := s.members.readyOwed.filter (fun r => decide (r.1 ≠ q)) ++ (ledgerPeers s q).map (fun r => (q, r)) } } (K.RB_STATE q) 4
    (ledgerPeers s q).foldl (fun s r => sendRank s q r { pkt0 with type := 0x19, w4 := wyWord s q own 0 0, w6 := BitVec.ofNat 64 e } [] (arrivalWho s q)) s

/-- In an epoch after the one in which its pass ended, with no rank LOST, a spare encodes every row it holds (R301 step 4). -/
def startRows (s : State) (q : Nat) : State :=
  match smapGet s.members.passEnd q with
  | some e =>
    if decide (rankState s q (ownRank s q) = 2 ∧ reg s (K.RB_STATE q) = 2 ∧ e < reg s (K.EPOCH q)) && ranksIn s q 1 = [] then
      spareReady ((rowsIn s q 0 (codedCourses s q)).foldl (fun s c => startEncode s q c none) (setReg s (K.RB_STATE q) 3)) q
    else s
  | none => s

/-- Encodes of an earlier epoch start again, and with them every row of a spare that is not ready (R301, R304, R307). -/
def restartEncodes (s : State) (q : Nat) : State :=
  let s := (s.mixer.encodes.filter (fun x => decide (x.part = q ∧ x.epoch ≠ reg s (K.EPOCH q)))).foldl (fun s x => bump (startEncode s q x.course x.sid) K.RPT_ENCODE_RESTARTS 1) s
  if rankState s q (ownRank s q) = 2 ∧ reg s (K.RB_STATE q) = 3 then
    ((rowsIn s q 0 (codedCourses s q)).filter (fun c => !s.mixer.encodes.any (fun x => decide (x.part = q ∧ x.course = c)))).foldl (fun s c =>
      setReg (startEncode s q c none) (K.RB_BRICKS_LEFT q) (reg s (K.RB_BRICKS_LEFT q) + 1)) s
  else startRows s q

/-- The phase that a descriptor's acceptance begins (R254). -/
def phaseAccept (s : State) (q : Nat) (d : Desc) : State :=
  let p := reg s (K.STEP_PHASE q)
  if backwardKind d && decide (p = 1) then setPhase s q 2
  else if decide (d.opcode = 0x61) && !hasWythe s q && decide (1 ≤ p ∧ p < 4) then setPhase s q 4
  else s

/-- A held stream starts: it belongs to the present epoch (R257, R418). -/
def releaseStream (s : State) (q sid : Nat) : State :=
  let s := updStream s sid (fun y => { y with hold := 0, epoch := reg s (K.EPOCH q) })
  match findStream s sid with
  | none => s
  | some y =>
    let s := phaseAccept s q y.d
    let s := { s with mixer := { s.mixer with bound := if s.mixer.bound.contains q then s.mixer.bound else q :: s.mixer.bound } }
    if y.d.opcode = 0x61 then trwJoin s y.id
    else if 0x50 ≤ y.d.opcode ∧ y.d.opcode ≤ 0x53 then rdxAccept s y
    else if accumulates y.d then giveOrdinals s
    else mixAccept s y.id

/-- Release the streams that a commit holds, in acceptance order (R257). -/
def releaseHeld (s : State) (q : Nat) : State :=
  (s.tracker.streams.filter (fun x => decide (x.d.part = q ∧ x.hold = 1))).foldl (fun s x =>
    releaseStream s q x.id) s

/-- What the end of an epoch clears (R151, R185, R194, R271). -/
def clearEpoch (s : State) (q e : Nat) : State :=
  let mine := fun (a : Nat) => decide (a = q)
  let m := s.mixer
  let s := { s with
    visits := s.visits.filter (fun v => decide (reg s (K.XP_PARTITION v.1) ≠ q)),
    rdx := { s.rdx with tags := s.rdx.tags.filter (fun t => !mine t.1), folds := s.rdx.folds.filter (fun f => decide (¬ (f.part = q ∧ f.epoch ≤ e))),
                        clips := s.rdx.clips.filter (fun f => decide (¬ (f.part = q ∧ f.epoch ≤ e))) },
    mixer := { m with list := m.list.filter (fun r => !mine r.part), resend := m.resend.filter (fun r => !mine r.1), begun := m.begun.filter (fun r => !mine r.1),
                      updates := m.updates.filter (fun u => !mine u.1), bound := m.bound.filter (fun a => !mine a), doneSeal := m.doneSeal.filter (fun a => !mine a),
                      ledgers := m.ledgers.filter (fun l => decide (¬ (l.part = q ∧ l.epoch ≤ e))), refusal := m.refusal.filter (fun r => !mine r.1) } }
  dropBarriers (setReg s (K.EPOCH_LIST_USED q) 0) q e

/-- The ledger of the step after this one (R275): positions come from the records of the step, and an absent rank's is the one it had. -/
def nextLedger (s : State) (q e : Nat) : Ledger :=
  let own := recordFrom s q (selfRank s q) e
  let old := currentLedger s q
  let n := if hasWythe s q then wyN s q else 1
  let keep' := fun r => match old with | some l => (l.pos[r]?).getD 0 | none => 0
  { step := (e + 1) % 2 ^ 48, layout := 1, seed := reg s (K.JOB_SEED q), id := if hasWythe s q then reg s (K.WYTHE_ID q) else 0, ranks := n,
    opt := match own with | some r => r.opt | none => 0, sched := match own with | some r => r.sched | none => 0, map := reg s (K.MAP_EPOCH q),
    pos := (List.range 32).map (fun r => if r < n then (match recordFrom s q r e with | some l => l.pos | none => keep' r) else 0), crcOk := true }

/-- Steps 6 to 8 of R273 but for the record: the committed state's digest closes, the ledger and the epoch advance, and the held
descriptors start. -/
def advanceEpoch (s : State) (q : Nat) : State :=
  let e := reg s (K.EPOCH q)
  let s := (closeDigests (notePass s q) false (fun d => decide (d.part = q ∧ (d.kind = 1 ∨ d.kind = 3)))).1
  let s := switchLedger s q (nextLedger s q e)
  let s := setRegs s [(K.EPOCH q, (e + 1) % 2 ^ 48), (K.STEP_PHASE q, 1)]
  let s := { s with members := { s.members with arith := smapErase s.members.arith q, rebuilt := (s.members.rebuilt.filter (fun r => decide (r ≠ (q, 2 ^ 48)))) ++ [(q, 2 ^ 48)] } }
  let s := clearEpoch (bump s K.STEPS_COMMITTED 1) q e
  releaseHeld (restartEncodes s q) q

/-- MIX_COMMIT ends early: the phase returns to UPDATE (R274). -/
def commitFails (s : State) (x : Stream) (status detail : Nat) : State :=
  let s := if reg s (K.STEP_PHASE x.d.part) = 5 then setPhase s x.d.part 4 else s
  endStream s x.id status detail

/-- Step 1 of R273: read the parameter tile and file this block's record; step 2: send it. -/
def commitOpens (s : State) (x : Stream) : State :=
  let q := x.d.part
  match readName s x x.d.src with
  | (s, .wait) => s
  | (s, .fail a b) => commitFails s x a (failDetail s x.id a b)
  | (s, .ok t) =>
    if t.info.poison ≠ 0 then commitFails s x 0x24 0
    else if !ledgerHomed s q then commitFails s x 0x21 0
    else
      let own : LedgerRec := { part := q, rank := selfRank s q, epoch := x.epoch, opt := leAt t.data 0 8, sched := leAt t.data 8 8, pos := leAt t.data 16 8 }
      let s := updStream (putRecord s own) x.id (fun y => { y with mark := 1 })
      if hasWythe s q then
        (ledgerPeers s q).foldl (fun s r => sendRank s q r { pkt0 with type := 0x15, w4 := wyWord s q (ownRank s q) 0 0, w6 := BitVec.ofNat 64 x.epoch }
          (asLines (natLe 8 own.opt ++ natLe 8 own.sched ++ natLe 8 own.pos)) (whoOf x)) s
      else s

/-- The first disagreement among the peers' records (R282). -/
def ledgerDiffers (s : State) (q e : Nat) : Option (Nat × Nat) :=
  match recordFrom s q (selfRank s q) e with
  | none => none
  | some own =>
    (ledgerPeers s q).findSome? (fun r =>
      match s.mixer.ledgers.find? (fun l => decide (l.part = q ∧ l.rank = r)) with
      | none => none
      | some l => if e < l.epoch then some (r, 1) else if l.epoch ≠ e then none else if l.opt ≠ own.opt then some (r, 2) else if l.sched ≠ own.sched then some (r, 3) else none)

/-- Updates that step 3 considers (R274). -/
def commitUpdates (s : State) (x : Stream) : List (Nat × Nat × Nat) :=
  s.mixer.updates.filter (fun u => decide (u.1 = x.d.part ∧ u.2.1 < x.id ∧ u.2.2 < 3))

/-- Steps 2 to 5 of R273. -/
def commitGoes (s : State) (x : Stream) : State :=
  let q := x.d.part
  let e := x.epoch
  let us := commitUpdates s x
  let wythe := hasWythe s q
  let early := us.filter (fun u => decide (u.2.2 = 2))
  match (if wythe then refusalOf s q else none), (if wythe then ledgerDiffers s q e else none) with
  | some d, _ => commitFails s x 0x77 d
  | none, some (r, item) =>
    commitFails { s with mixer := { s.mixer with ledgers := s.mixer.ledgers.filter (fun l => decide (¬ (l.part = q ∧ l.rank = r))) } } x 0x76 (r + item * 256)
  | none, none =>
    if us.any (fun u => decide (u.2.2 = 0)) then s
    else if early ≠ [] then
      commitFails { s with mixer := { s.mixer with updates := s.mixer.updates.map (fun u => if early.contains u then (u.1, u.2.1, 4) else u) } } x 0x75 early.length
    else if !wythe then endStream (advanceEpoch s q) x.id 0 0
    else if (currentLedger s q).isNone then startCopy s q
    else if (ledgerPeers s q).any (fun r => (recordFrom s q r e).isNone) || s.mixer.kept.any (fun k => decide (k.part = q ∧ k.kind = 0)) then s
    else barrierArriveOwn (updStream s x.id (fun y => { y with mark := 3 })) q 2 e

/-- MIX_COMMIT (R272-R277). -/
def commitRun (s : State) (x : Stream) : State :=
  match judgement x with
  | some (a, b) => endStream s x.id a b
  | none =>
    if x.ordinal ≠ 1 ∨ x.mark = 3 then s
    else
      let s := if x.mark = 0 then commitOpens s x else s
      match running s x.id 0x72 with
      | some y => if y.mark = 1 then commitGoes s y else s
      | none => s

/-- A stream's encodes that are under way or stopped. -/
def encodesOf (s : State) (sid : Nat) : List Encode := s.mixer.encodes.filter (fun e => decide (e.sid = some sid))

/-- The checks of R314 for a phase and for LOST ranks. -/
def phaseRefuses (s : State) (q : Nat) (phases : List Nat) (noLost : Bool) : Option (Nat × Nat) :=
  if !phases.contains (reg s (K.STEP_PHASE q)) then some (0x7C, reg s (K.STEP_PHASE q))
  else if noLost ∧ ranksIn s q 1 ≠ [] then some (0x7C, 0xFF)
  else none

/-- MIX_ENCODE (R307, R309). `mark` is 1 once its encodes are started; `pos` counts its rows. -/
def encodeRun (s : State) (x : Stream) : State :=
  let q := x.d.part
  let first := (x.d.src - codedFirst s q) / 16
  if x.mark = 1 then
    match (encodesOf s x.id).find? Encode.stopped with
    | some c =>
      let s := { s with mixer := { s.mixer with encodes := s.mixer.encodes.map (fun e => if e.sid = some x.id then { e with sid := none } else e) } }
      endStream s x.id 0x77 (c.owed.headD 0 + 2 * 256)
    | none => if encodesOf s x.id = [] then endStream s x.id 0 x.pos else s
  else
    match phaseRefuses s q [1, 2, 3] true with
    | some (a, b) => endStream s x.id a b
    | none =>
      if x.d.src % 16 ≠ 0 ∨ x.d.count % 16 ≠ 0 ∨ within x.d.src x.d.count (codedFirst s q) (16 * codedCourses s q) = false then endStream s x.id 0x7B 0
      else
        let rows := rowsIn s q first (x.d.count / 16)
        let s := rows.foldl (fun s c => startEncode s q c (some x.id)) (updStream s x.id (fun y => { y with mark := 1, pos := rows.length }))
        if rows = [] then endStream s x.id 0 0 else s

/-- Run again the mixer's descriptors of a partition that wait: something they wait for may have come. -/
def mixWake (s : State) (q : Nat) : State :=
  ((s.tracker.streams.filter (fun x => decide (x.d.part = q) && [0x75, 0x70, 0x71, 0x72].contains x.d.opcode && decide (x.mark ≠ 0 ∨ x.d.opcode = 0x71))).map (fun x => (x.id, x.d.opcode))).foldl (fun s e =>
    match running s e.1 e.2 with
    | some x =>
      if e.2 = 0x70 then (if x.pos = x.d.count / 16 then sealRun s x else s)
      else if e.2 = 0x71 then (if x.pos = gradCourses s q then sealDoneRun s x else s)
      else if e.2 = 0x72 then commitRun s x
      else encodeRun s x
    | none => s) s

/-- The seal barrier has released (R254, R265, R304): the sealed gradient's digest closes, spares that are ready become LIVE, and
MIX_SEAL_DONE completes. -/
def sealReleased (s : State) (q e : Nat) : State :=
  let s := { s with mixer := { s.mixer with released := (q, 1, e) :: s.mixer.released } }
  let s := (closeDigests s false (fun d => decide (d.part = q ∧ d.kind = 2))).1
  let s := (ranksIn s q 2).foldl (fun s r => if rankReady s q r then setRank s q r 0 else s) s
  let s := phaseBy s q 4
  (s.tracker.streams.filter (fun x => decide (x.d.part = q ∧ x.d.opcode = 0x71 ∧ x.ordinal = 1 ∧ x.epoch = e ∧ x.hold = 0) && x.taken && x.finish.isNone)).foldl (fun s x => endStream s x.id 0 0) s

/-- The step-commit barrier has released: the epoch advances and MIX_COMMIT completes (R273). -/
def commitReleased (s : State) (q e : Nat) : State :=
  if reg s (K.EPOCH q) ≠ e then s
  else
    let xs := s.tracker.streams.filter (fun x => decide (x.d.part = q ∧ x.d.opcode = 0x72 ∧ x.mark = 3) && x.taken && x.finish.isNone)
    let s := advanceEpoch { s with mixer := { s.mixer with released := (q, 2, e) :: s.mixer.released } } q
    xs.foldl (fun s x => endStream s x.id 0 0) s

/-- MIX_SEAL (R263, R264). -/
def execMixSeal (sid : Nat) (s : State) : Host.Outcome State Fault Refusal := whenWorking s (onStream s sid 0x70 sealRun)

/-- MIX_SEAL_DONE (R263, R265). -/
def execMixSealDone (sid : Nat) (s : State) : Host.Outcome State Fault Refusal := whenWorking s (onStream s sid 0x71 sealDoneRun)

/-- MIX_COMMIT (R263, R273). -/
def execMixCommit (sid : Nat) (s : State) : Host.Outcome State Fault Refusal := whenWorking s (onStream s sid 0x72 commitRun)

/-- MIX_ENCODE (R307, R309). -/
def execMixEncode (sid : Nat) (s : State) : Host.Outcome State Fault Refusal := whenWorking s (onStream s sid 0x75 encodeRun)

/-- COMMIT_STALLED: a seal or commit descriptor has made no progress for COMMIT_STALL_MS (R274). -/
def execCommitStalled (sid : Nat) (s : State) : Host.Outcome State Fault Refusal :=
  whenWorking s (
    match findStream s sid with
    | some x =>
      if x.taken && x.finish.isNone && !x.stallRaised && decide (x.hold = 0 ∧ (x.d.opcode = 0x71 ∨ x.d.opcode = 0x72)) then
        raise (updStream s sid (fun y => { y with stallRaised := true })) 0x04 stMIX 0 (some x.d.part) false x.d.opcode
      else s
    | none => s)

end Sys2Proof.Machine
end

