-- ==== Sys2Proof/Machine/Rx.lean ====
section
/-! DEFINITION. Packets arriving at the fabric port: what FP discards (R322), the map epoch (R287), fragments (R321), and
responses (R330). -/
namespace Sys2Proof.Machine

/-- Answer a request (R330): its partition and tag are copied. -/
def respond (s : State) (p : Packet) (status : Nat) (whole : Bool) (w4 w5 : Word64) (l : List Line) : State :=
  let s := if status = 0 then s else bump s K.FP_APERTURE_MISS 1
  let level := if p.level = 3 ∨ p.level = 4 then p.level else reg s K.FP_LEVEL_MAX
  sendPacket s { pkt0 with level := level, type := 0x08, whole := whole, partition := p.partition, dst := p.src, tag := p.tag, status := status,
                           lines := l.length, w4 := w4, w5 := w5, payload := l } (arrivalWho s p.partition)

/-- The packet types of R320; the others are reserved. -/
def packetTypes : List Nat :=
  [0x01, 0x02, 0x03, 0x04, 0x08, 0x10, 0x11, 0x12, 0x13, 0x14, 0x15, 0x16, 0x17, 0x18, 0x19, 0x20, 0x21, 0x22, 0x23, 0x24,
   0x30, 0x31, 0x32, 0x33, 0x34, 0x35, 0x36, 0x37, 0x38]

/-- Whether a packet that is at the port is of this type and passes R322; a request at a level not spoken is answered. A packet of another
type that R320 lists is no packet of this command and changes nothing; a block without an identifier has no DST_NODE that is its own.
DEDUCED: log entry 103. -/
def rxBase (s : State) (p : Packet) (type : Nat) : State × Bool :=
  if (p.type ≠ type ∧ packetTypes.contains p.type) ∨ fpUp s = false then (s, false)
  else
    let s := bump s K.FP_RX_PACKETS 1
    if p.hdrCrc.toNat ≠ crc32c (hdrBytes p) ∨ p.dst ≠ reg s K.FP_NODE_ID ∨ reg s K.FP_NODE_ID = 0 ∨ p.type ≠ type then
      (bump s K.FP_RX_DISCARDED 1, false)
    else if p.level = 3 ∨ p.level = 4 then (s, true)
    else if type ≤ 4 then (respond s p 0x06 false 0 0 [], false)
    else (bump s K.FP_RX_DISCARDED 1, false)

/-- The rank whose table entry names a node, and the partition its window gives. -/
def wythePart (s : State) (q node : Nat) : Option Nat :=
  (List.range (wyN s q)).findSome? (fun r =>
    match memberEntry s q r with
    | some e => if bits e 47 16 = node then some (windowOf s q (e % 256)).part else none
    | none => none)

def groupPart (s : State) (q node : Nat) : Option Nat :=
  (List.range (groupN s q)).findSome? (fun r =>
    match rankWindow s q r with
    | some w => if (windowOf s q w).valid && decide ((windowOf s q w).node = node) then some (windowOf s q w).part else none
    | none => none)

/-- Answer a packet of a lower map epoch with a fence notice (R287). -/
def sendFence (s : State) (q : Nat) (p : Packet) (isGroup : Bool) : State :=
  let part := ((if isGroup then groupPart s q p.src else wythePart s q p.src)).getD p.partition
  sendFrags s { pkt0 with level := reg s (K.FP_LEVEL q), type := 0x16, partition := part, dst := p.src, mapEpoch := reg s (K.MAP_EPOCH q),
                          w4 := BitVec.ofNat 64 (p.w4.toNat % 2 ^ 32 + b2n isGroup * 2 ^ 32) } [] (arrivalWho s q)

/-- The comparison of map epochs (R287, R496): false where the packet is discarded. -/
def rxEpoch (s : State) (q : Nat) (p : Packet) (isGroup : Bool) : State × Bool :=
  if p.mapEpoch = reg s (K.MAP_EPOCH q) then (s, true)
  else
    let s := bump s K.MEMBER_FENCED_PKTS 1
    (if p.mapEpoch < reg s (K.MAP_EPOCH q) ∧ reg s (K.JOB_STATE q) ≠ 4 then sendFence s q p isGroup else s, false)

/-- Act on a wythe packet of a partition that has a wythe map. -/
def rxWythe (s : State) (p : Packet) (type : Nat) (f : State → Nat → State) : State :=
  match rxBase s p type with
  | (s, false) => s
  | (s, true) =>
    if !hasWythe s p.partition then s
    else
      match rxEpoch s p.partition p false with
      | (s, false) => s
      | (s, true) => f s p.partition

/-- The packet that all fragments of one payload share. -/
def fragKey (p : Packet) : Packet := { p with frag := 0, lines := 0, seq := 0, hdrCrc := 0, payload := [] }

/-- Take a fragment of a payload of `total` lines: the payload, once it is whole (R321). -/
def assemble (s : State) (p : Packet) (total : Nat) : State × Option (List Line) :=
  let n := max 1 (ceilDiv total (fragLines p.level))
  if n = 1 then (s, if p.payload.length = total then some p.payload else none)
  else
    let key := fragKey p
    let old := match s.fabric.assemblies.find? (fun a => decide (a.key = key)) with | some a => a.frags | none => []
    let frags := old.filter (fun f => decide (f.1 ≠ p.frag)) ++ [(p.frag, p.payload)]
    let rest := s.fabric.assemblies.filter (fun a => decide (a.key ≠ key))
    let parts := (List.range n).map (fun i => (frags.find? (fun f => decide (f.1 = i))).map Prod.snd)
    if parts.all Option.isSome then
      let l := (parts.map (fun o => o.getD [])).flatten
      ({ s with fabric := { s.fabric with assemblies := rest } }, if l.length = total then some l else none)
    else ({ s with fabric := { s.fabric with assemblies := rest ++ [{ key := key, frags := frags }] } }, none)

/-- A reduction packet of a group that is not the partition's is refused (R181). -/
def rxGroup (s : State) (p : Packet) (type : Nat) (f : State → Nat → State) : State :=
  match rxBase s p type with
  | (s, false) => s
  | (s, true) =>
    let q := p.partition
    if reg s (K.RG_STATE q) ≠ 1 ∨ p.w4.toNat % 2 ^ 32 ≠ reg s (K.RG_GROUP_ID q) then bump s K.RDX_FOREIGN 1
    else
      match rxEpoch s q p true with
      | (s, false) => s
      | (s, true) => f s q

/-- Act on a reduction packet of one fragment. -/
def rxReduction (p : Packet) (type lines : Nat) (s : State) : State :=
  rxGroup s p type (fun s q =>
    match assemble s p lines with
    | (s, some l) => rdxPacket s q p l
    | (s, none) => s)

/-- Lines of a reduction segment's payload, as its run has it. -/
def segmentLines (s : State) (q : Nat) (p : Packet) : Option Nat :=
  match runOf s q (rdxTag p) (rdxEpoch p) with
  | none => none
  | some r =>
    let sh := bits p.w6.toNat 51 40
    let seg := p.w6.toNat % 2 ^ 32
    let n := groupN s q
    if r.op = 0x52 then some (64 * segTiles r.desc.count n sh seg)
    else
      match layerOf s q r.desc.src with
      | none => none
      | some l =>
        let first := shardLo l.tiles n sh + 16 * seg
        let size := 1024 * segTiles l.tiles n sh seg
        some (segLines (refMode s q r.epoch) l first { elems := List.replicate size (leaf 0), bad := [] }).length

/-- RDX_OPEN arriving (R186, R190). -/
def execRdxOpen (p : Packet) (s : State) : Host.Outcome State Fault Refusal := whenWorking s (rxReduction p 0x20 1 s)

/-- RDX_SEGMENT arriving (R190): it waits, as a fragment does, while its run is not there to take it. -/
def execRdxSegment (p : Packet) (s : State) : Host.Outcome State Fault Refusal :=
  whenWorking s (rxGroup s p 0x21 (fun s q =>
    match assemble s p ((segmentLines s q p).getD 0x10000) with
    | (s, some l) => rdxPacket s q p l
    | (s, none) => s))

/-- RDX_CREDIT arriving (R190). -/
def execRdxCredit (p : Packet) (s : State) : Host.Outcome State Fault Refusal := whenWorking s (rxReduction p 0x22 0 s)

/-- RDX_ABANDON arriving (R198). -/
def execRdxAbandon (p : Packet) (s : State) : Host.Outcome State Fault Refusal := whenWorking s (rxReduction p 0x23 0 s)

/-- RDX_NORM_PARTIAL arriving (R193). -/
def execRdxNormPartial (p : Packet) (s : State) : Host.Outcome State Fault Refusal := whenWorking s (rxReduction p 0x24 0 s)

end Sys2Proof.Machine
end

