-- ==== Sys2Proof/Machine/Serve.lean ====
section
/-! DEFINITION. Requests arriving at the partition's aperture (R325-R328, R330): loads, stores, flagged stores and atomics. A request
whose tile is homed in a peer is passed on through its window, read first and then written. -/
namespace Sys2Proof.Machine

/-- What reading an aperture tile comes to: the tile, its home in a peer, a wait for a decode or a tag, or the answer's status. -/
inductive Served where
  | ok (t : Tile)
  | peer (win o : Nat)
  | wait
  | fail (status : Nat)
  deriving DecidableEq, Repr

/-- The aperture tile's name (R325). -/
def apertureName (s : State) (q address : Nat) : Nat := reg s (K.APERTURE_FIRST q) % 2 ^ 48 + address / 4096

/-- The status with which the aperture refuses an address, where it does (R325, R330); `wellFormed` is the request's own form. -/
def apertureRefuses (s : State) (q address : Nat) (formed : Bool) : Option Nat :=
  if reg s (K.APERTURE_NAMES q) = 0 then some 0x02
  else if reg s (K.APERTURE_NAMES q) ≤ address / 4096 then some 0x01
  else if !formed then some 0x08
  else if homeOf s q (apertureName s q address) = .none ∧ !isWbName s q (apertureName s q address) then some 0x03
  else none

/-- Read an aperture tile at its home, through HOM (R87, R302, R308, R325). -/
def serveRead (s : State) (q name : Nat) : State × Served :=
  let w := arrivalWho s q
  let answer := fun (r : State × NameRead) =>
    match r with
    | (s, .ok t) => (s, Served.ok t)
    | (s, .wait) => (s, .wait)
    | (s, .fail _ _) => (s, .fail 0x07)
  if isWbName s q name then
    let r := wbRead s q name w
    match r.2.fail with
    | some _ => (r.1, .fail 0x07)
    | none => (r.1, .ok r.2.tile)
  else
    match mapFetch s q name with
    | (s, some _) => (s, .fail 0x07)
    | (s, none) =>
      match homeOf s q name with
      | .none => (s, .fail 0x03)
      | l =>
        let here := match l with | .peer win o => (s, Served.peer win o) | l => answer (readLocal s q name l w)
        match courseOf s q name with
        | some c =>
          if unbuilt s q c then
            let s := if (findRepair s q c (ownRank s q) false).isNone then bump s K.RPT_DEGRADED_READS 1 else s
            answer (readByRepair s q name c fullMask true (zeroTile 0))
          else here
        | none => here

/-- What writing an aperture tile comes to. -/
inductive Wrote where
  | done
  | sent
  | wait
  | fail (status : Nat)
  deriving DecidableEq, Repr

/-- Write a whole aperture tile at its home (R59, R326). -/
def serveWrite (s : State) (q name : Nat) (t : Tile) (use : ReqUse) : State × Wrote :=
  let w := arrivalWho s q
  if isWbName s q name then
    match wbWrite s q name t w with
    | (s, some _) => (s, .fail 0x07)
    | (s, none) => (s, .done)
  else
    match mapFetch s q name with
    | (s, some _) => (s, .fail 0x07)
    | (s, none) =>
      if inMotion s.tracker.streams q name then (s, .wait)
      else
        match homeOf s q name with
        | .none => (s, .fail 0x03)
        | .peer win o =>
          if relayHolds s q name then (s, .wait)
          else
          match sendStore s q win o t use w with
          | (s, .sent) => (s, .sent)
          | (s, .noTag) => (s, .wait)
          | (s, .refused) => (s, .fail 0x07)
        | l =>
          match writeLoc s l t w with
          | (s, some _) => (s, .fail 0x07)
          | (s, none) => (s, .done)

/-- Keep a request until what it waits for may have come. -/
def stallReq (s : State) (p : Packet) : State := { s with fabric := { s.fabric with stalled := s.fabric.stalled ++ [p] } }

/-- Answer a request with a status alone. -/
def refuseReq (s : State) (p : Packet) (status : Nat) : State :=
  respond s p status false (if p.type = 0x04 ∧ status = 0x04 then BitVec.allOnes 64 else 0) 0 []

/-- Read the tile of a request, here or in a peer, and go on with it. A request that changes a peer's tile is read only once every earlier
write of this block to that peer is answered, and holds the tile from then on (R328). DEDUCED: log entry 50. -/
def serveWith (s : State) (p : Packet) (go : State → Tile → State) : State :=
  match serveRead s p.partition (apertureName s p.partition p.address) with
  | (s, .ok t) => go s t
  | (s, .wait) => stallReq s p
  | (s, .fail st) => refuseReq s p st
  | (s, .peer win o) =>
    if p.type ≠ 0x01 && (relayHolds s p.partition (apertureName s p.partition p.address) || storesOut s (windowOf s p.partition win).node) then stallReq s p
    else
    match sendLoad s p.partition win o (.relay p) (arrivalWho s p.partition) with
    | (s, .sent) => s
    | (s, .noTag) => stallReq s p
    | (s, .refused) => refuseReq s p 0x07

/-- Write the tile of a request and go on once it is written. -/
def serveStore (s : State) (p : Packet) (t : Tile) (old : Word64) (go : State → State) : State :=
  match serveWrite s p.partition (apertureName s p.partition p.address) t (.relayed p old) with
  | (s, .done) => go s
  | (s, .sent) => s
  | (s, .wait) => stallReq s p
  | (s, .fail st) => refuseReq s p st

/-- The lines that a request reaches: first and count. -/
def reqFirst (p : Packet) : Nat := p.address % 4096 / 64
def reqLines (p : Packet) : Nat := if p.type = 0x01 then p.w4.toNat % 128 else p.lines

/-- A load or store of 1 to 64 lines of one tile, or of the whole tile (R326). -/
def linesFormed (p : Packet) : Bool :=
  decide (p.address % 64 = 0 ∧ 1 ≤ reqLines p ∧ reqFirst p + reqLines p ≤ 64) && (!p.whole || decide (reqLines p = 64 ∧ p.address % 4096 = 0)) &&
    (decide (p.type = 0x01) || decide (p.payload.length = p.lines))

/-- Answer a LOAD from the tile (R326, R330). -/
def loadTile (p : Packet) (s : State) (t : Tile) : State :=
  let l := ((tileLines t).drop (reqFirst p)).take (reqLines p)
  let m := metaBytes t.info
  respond s p 0 p.whole (if p.whole then BitVec.ofNat 64 (leAt m 0 8) else 0) (if p.whole then BitVec.ofNat 64 (leAt m 8 8) else 0) l

def serveLoad (s : State) (p : Packet) : State :=
  match apertureRefuses s p.partition p.address (linesFormed p) with
  | some st => refuseReq s p st
  | none => serveWith s p (loadTile p)

/-- The new word of an atomic (R328). -/
def atomicValue (op : Nat) (old operand compare : Word64) : Word64 :=
  if op = 0 then old + operand
  else if op = 1 then (if old = compare then operand else old)
  else if op = 2 then operand
  else if op = 3 then (if operand.toNat < old.toNat then operand else old)
  else if op = 4 then (if old.toNat < operand.toNat then operand else old)
  else (fAdd .rne (old.setWidth 32) (operand.setWidth 32)).setWidth 64

def atomicOp (p : Packet) : Nat := p.w6.toNat % 8
def atomicSize (p : Packet) : Nat := if atomicOp p = 5 then 4 else 8

/-- The flag write of a flagged store: its 8 bytes at its flag address; `combined` sets it apart from an arriving atomic. -/
def flagWrite (p : Packet) : Packet :=
  { p with type := 0x04, combined := true, whole := false, address := p.w4.toNat % 2 ^ 48, w4 := p.w5, w5 := 0, w6 := 2, lines := 0, payload := [] }

/-- An atomic, or a flag, is written (R327, R328). -/
def atomicDone (s : State) (p : Packet) (old : Word64) : State := respond s p 0 false (if p.combined then 0 else old) 0 []

/-- Act on the atomic's word in its tile: one step at its home (R328). -/
def atomicTile (p : Packet) (s : State) (t : Tile) : State :=
  let o := p.address % 4096
  let n := atomicSize p
  if tileBad t (o / 64) && !p.combined then refuseReq s p 0x04
  else
    let old := BitVec.ofNat 64 (leAt t.data o n)
    let new := atomicValue (atomicOp p) old p.w4 p.w5
    serveStore s p (tilePut t o (natLe n new.toNat)) old (fun s => atomicDone s p old)

def serveAtomic (s : State) (p : Packet) : State :=
  match apertureRefuses s p.partition p.address (decide (p.address % atomicSize p = 0 ∧ atomicOp p ≤ 5)) with
  | some st => refuseReq s p st
  | none => if (atomicOp p = 3 ∨ atomicOp p = 4) ∧ p.level = 3 then refuseReq s p 0x06 else serveWith s p (atomicTile p)

/-- The signed difference of two store numbers is below zero (R327). -/
def seqBelow (a b : Nat) : Bool := decide (2 ^ 31 ≤ (a + 2 ^ 32 - b) % 2 ^ 32)

/-- What a source's stores to a partition have come to; numbering starts at 0 at discovery (R327). -/
def seqTrack (s : State) (src part : Nat) : SeqTrack :=
  (s.fabric.rx.find? (fun t => decide (t.src = src ∧ t.part = part))).getD { src := src, part := part, next := 0, ahead := [] }

/-- Move past the numbers that are applied. -/
def seqAdvance : Nat → SeqTrack → SeqTrack
  | 0, t => t
  | fuel + 1, t =>
    if t.ahead.contains t.next then
      seqAdvance fuel { t with next := (t.next + 1) % 2 ^ 32, ahead := t.ahead.filter (fun n => decide (n ≠ t.next)) }
    else t

/-- A store is applied. -/
def seqApplied (s : State) (src part n : Nat) : State :=
  let t := seqTrack s src part
  if seqBelow n t.next then s
  else
    let t := seqAdvance (t.ahead.length + 1) { t with ahead := n :: t.ahead.filter (fun k => decide (k ≠ n)) }
    { s with fabric := { s.fabric with rx := t :: s.fabric.rx.filter (fun x => decide (¬ (x.src = src ∧ x.part = part))) } }

/-- Every store with a lower number is applied. -/
def seqClear (s : State) (p : Packet) : Bool :=
  let t := seqTrack s p.src p.partition
  !seqBelow t.next p.seq

/-- One more than the highest number seen of a source: what an atomic, which carries none, waits for (R328). -/
def seqSeen (s : State) (src part : Nat) : Nat :=
  let t := seqTrack s src part
  t.ahead.foldl (fun a n => if seqBelow a ((n + 1) % 2 ^ 32) then (n + 1) % 2 ^ 32 else a) t.next

/-- Write what waits for earlier stores, where they are now applied (R327, R328). -/
def releaseFlags (s : State) : State :=
  let go := s.fabric.flagged.filter (seqClear s)
  let s := { s with fabric := { s.fabric with flagged := s.fabric.flagged.filter (fun p => !seqClear s p) } }
  go.foldl serveAtomic s

/-- Wait for the earlier stores, or go on at once. -/
def afterEarlier (s : State) (p : Packet) : State :=
  releaseFlags { s with fabric := { s.fabric with flagged := s.fabric.flagged ++ [p] } }

/-- A store's lines are applied (R327). -/
def storeDone (s : State) (p : Packet) : State :=
  let s := seqApplied s p.src p.partition p.seq
  if p.type = 0x02 then releaseFlags (respond s p 0 false 0 0 []) else afterEarlier s (flagWrite p)

/-- The tile with a store's lines merged (R326, R387). -/
def storeMerge (p : Packet) (t : Tile) : Tile :=
  let t := tilePut t (64 * reqFirst p) (lineData p.payload)
  { t with info := { t.info with poison := t.info.poison ||| maskOf ((lineBad p.payload).map (fun j => reqFirst p + j)) } }

/-- The tile that a whole store carries. -/
def storeWhole (p : Packet) : Tile :=
  let m := metaOf (natLe 8 p.w4.toNat ++ natLe 8 p.w5.toNat)
  { data := lineData p.payload, info := { m with poison := m.poison ||| maskOf (lineBad p.payload) } }

/-- A whole store that the aperture takes has its tile checked as it arrives (R385, R386). -/
def checkStore (s : State) (p : Packet) : State × Packet :=
  if p.whole && (apertureRefuses s p.partition p.address (linesFormed p)).isNone then
    match checkTile s (identName (apertureName s p.partition p.address)) (some p.partition) (storeWhole p) with
    | (s, t) =>
      let m := metaBytes t.info
      (s, { p with w4 := BitVec.ofNat 64 (leAt m 0 8), w5 := BitVec.ofNat 64 (leAt m 8 8) })
  else (s, p)

def storeTile (p : Packet) (s : State) (t : Tile) : State := serveStore s p (storeMerge p t) 0 (fun s => storeDone s p)

/-- A STORE or FLAGGED_STORE (R326, R327): a flag whose address the aperture refuses is refused before a line is applied. A flagged store's words 4 and 5
are its flag, so it carries no metadata: its lines are merged. DEDUCED: log entry 50. -/
def serveStores (s : State) (p : Packet) : State :=
  let flag := if p.type = 0x03 then apertureRefuses s p.partition (p.w4.toNat % 2 ^ 48) (decide (p.w4.toNat % 8 = 0)) else none
  match (apertureRefuses s p.partition p.address (linesFormed p)).orElse (fun _ => flag) with
  | some st => refuseReq s p st
  | none => if p.whole && decide (p.type = 0x02) then serveStore s p (storeWhole p) 0 (fun s => storeDone s p) else serveWith s p (storeTile p)

/-- Serve a request that has passed R322. DEDUCED: log entry 50. -/
def serve (s : State) (p : Packet) : State :=
  if p.type = 0x01 then serveLoad s p
  else if p.type = 0x04 then serveAtomic s p
  else serveStores s p

/-- Serve again the requests that waited. -/
def retryStalled (s : State) : State :=
  (s.fabric.stalled.filter (fun p => decide (p.type ≤ 0x04))).foldl serve
    { s with fabric := { s.fabric with stalled := s.fabric.stalled.filter (fun p => decide (0x04 < p.type)) } }

/-- A peer's tile has come for a request that is passed on. -/
def relayTile (s : State) (p : Packet) (t : Tile) : State :=
  if p.type = 0x01 then loadTile p s t
  else if p.type = 0x04 then atomicTile p s t
  else storeTile p s t

/-- A peer has written the tile of a request that is passed on. -/
def relayDone (s : State) (p : Packet) (old : Word64) : State := if p.type = 0x04 then atomicDone s p old else storeDone s p

/-- An arriving request. -/
def rxRequest (s : State) (p : Packet) (type : Nat) (f : State → Packet → State) : State :=
  match rxBase s p type with
  | (s, false) => s
  | (s, true) => f s { p with combined := false }

/-- LOAD arriving (R325, R326). -/
def execLoad (p : Packet) (s : State) : Host.Outcome State Fault Refusal := whenWorking s (rxRequest s p 0x01 serveLoad)

/-- STORE arriving (R326, R327, R385). -/
def execStore (p : Packet) (s : State) : Host.Outcome State Fault Refusal :=
  whenWorking s (rxRequest s p 0x02 (fun s p => match checkStore s p with | (s, p) => serveStores s p))

/-- FLAGGED_STORE arriving (R327). -/
def execFlaggedStore (p : Packet) (s : State) : Host.Outcome State Fault Refusal := whenWorking s (rxRequest s p 0x03 serveStores)

/-- ATOMIC arriving (R328). -/
def execAtomic (p : Packet) (s : State) : Host.Outcome State Fault Refusal :=
  whenWorking s (rxRequest s p 0x04 (fun s p => afterEarlier s { p with seq := seqSeen s p.src p.partition }))

/-- FLAG_TIMEOUT: an earlier store is still missing FP_TIMEOUT_US after the flagged store, or the atomic, arrived (R327, R328). -/
def execFlagTimeout (src part seq : Nat) (s : State) : Host.Outcome State Fault Refusal :=
  whenWorking s (
    let mine := fun (p : Packet) => decide (p.src = src ∧ p.partition = part ∧ p.seq = seq)
    match s.fabric.flagged.find? mine with
    | some p =>
      let s := { s with fabric := { s.fabric with flagged := s.fabric.flagged.eraseP mine } }
      refuseReq (bump s K.FP_ORDER_TIMEOUTS 1) p 0x05
    | none => s)

end Sys2Proof.Machine
end

