-- ==== Sys2Proof/Machine/MixIn.lean ====
section
/-! DEFINITION. The mixer's receiving side (R243, R249, R266-R268, R307): packed bricks at their holders, acknowledgements, requests
for bricks, ledger records and the ready flag. -/
namespace Sys2Proof.Machine

/-- Fields of a wythe packet (R320). -/
def wyId (p : Packet) : Nat := p.w4.toNat % 2 ^ 32
def wyRank (p : Packet) : Nat := bits p.w4.toNat 36 32
def wyKind (p : Packet) : Nat := bits p.w4.toNat 38 37
def wyCode (p : Packet) : Nat := bits p.w4.toNat 41 40
def wyCourse (p : Packet) : Nat := p.w5.toNat % 2 ^ 44
def wyLength (p : Packet) : Nat := bits p.w5.toNat 60 44
def wyEpoch (p : Packet) : Nat := p.w6.toNat % 2 ^ 48

/-- The combined course number of a packet's course. -/
def courseFor (s : State) (q kind course : Nat) : Nat := if kind = 1 then codedCourses s q + course else course

/-- Send WY_ACK to a rank, or to the node that asked where the member table gives it no rank (R268). -/
def sendAck (s : State) (q rank node kind course epoch code : Nat) : State :=
  let p : Packet := { pkt0 with type := 0x11, w4 := wyWord s q (ownRank s q) kind code, w5 := BitVec.ofNat 64 (course % 2 ^ 44), w6 := BitVec.ofNat 64 epoch }
  let s := if code = 1 then bump s K.ACK_DUPLICATE 1 else if code = 3 then bump s K.ACK_STALE 1 else s
  if memberNode s q rank = some node then sendRank s q rank p [] (arrivalWho s q) else sendNode s q node p [] (arrivalWho s q)

/-- What applying a delta to a mortar brick comes to. -/
inductive MortarEnd where
  | applied
  | poisoned (mask : Nat)
  | cannot
  deriving DecidableEq, Repr

/-- The mortar tiles after a delta (R243); the host computes them in host-assisted mode (R25). -/
def mortarAfter (s : State) (w : Who) (coef : Nat) (ts : List Tile) (ds : List (List Byte)) : State × List (List Byte) :=
  if reg s K.MIX_MODE = 2 then
    let h := hostWork s w (ds ++ ts.map Tile.data ++ [natLe 1 coef]) 65536
    (h.1, (List.range 16).map (fun i => bytesAt h.2 (4096 * i) 4096))
  else (s, List.zipWith (fun (t : Tile) d => bytesXor t.data (gfScale coef d)) ts ds)

/-- Apply a delta to the row this block holds in course c, and write the header, as one step (R243): where either cannot be written,
nothing stored changes, and while a move holds either the delta waits (R84). In host-assisted mode the brick that the host returns is written whole (R25). -/
def applyMortar (s : State) (q c j r : Nat) (ds : List (List Byte)) (h : Header) (w : Who) : State × MortarEnd :=
  let names := rangeFrom (brickName s q c) 16
  if brickMoving s q c then (s, .cannot)
  else
    match readBrickTiles s q w names with
    | (s, none) => (s, .cannot)
    | (s, some ts) =>
      let bad := ts.foldl (fun a (t : Tile) => a ||| t.info.poison.toNat) 0
      if c < codedCourses s q ∧ bad ≠ 0 then (s, .poisoned bad)
      else
        let mem := s.mem
        let m := mortarAfter (if reg s K.MIX_MODE = 2 then s else laneChecks s stMIX) w (genCoef j (dataIndex s q c r)) ts ds
        let out := (names.zip (List.zipWith (fun (t : Tile) d => ({ data := d, info := { t.info with crc := BitVec.ofNat 32 (crc32c d) } } : Tile)) ts m.2)).zip ds
        match writeBrickTiles m.1 q w ((out.filter (fun e => decide (reg s K.MIX_MODE = 2) || !allZero e.2)).map Prod.fst) with
        | (s, false) => ({ s with mem := mem }, .cannot)
        | (s, true) =>
          match writeHeader s q c h w with
          | (s, true) => (brickUsed s q c, .applied)
          | (s, false) => ({ s with mem := mem }, .cannot)

/-- Count an applied packed brick (R253). -/
def countApplied (s : State) (len : Nat) : State :=
  bump (bump (bump s K.MIX_DELTAS_APPLIED 1) K.MIX_DENSE_BYTES 65536) K.MIX_PACKED_BYTES len

/-- Hold a delta; a resend of a held one is discarded (R267). -/
def holdDelta (s : State) (d : HeldDelta) : State :=
  if s.mixer.held.any (fun x => decide (x.part = d.part ∧ x.course = d.course ∧ x.rank = d.rank ∧ x.epoch = d.epoch)) then s
  else { s with mixer := { s.mixer with held := s.mixer.held ++ [d] } }

/-- The encode of a course that is under way. -/
def encodeAt (s : State) (q c : Nat) : Option Encode := s.mixer.encodes.find? (fun e => decide (e.part = q ∧ e.course = c))

/-- Replace an encode. -/
def putEncode (s : State) (e : Encode) : State :=
  let s := dropSample s e.part e.course
  { s with mixer := { s.mixer with encodes := s.mixer.encodes.map (fun x => if x.part = e.part ∧ x.course = e.course then e else x) } }

def dropEncode (s : State) (q c : Nat) : State :=
  let s := dropSample s q c
  { s with mixer := { s.mixer with encodes := s.mixer.encodes.filter (fun x => decide (¬ (x.part = q ∧ x.course = c))) } }

/-- A data member's brick answers an encode request (R244, R307). -/
def applyAnswer (s : State) (e : Encode) (d : HeldDelta) (ds : List (List Byte)) : State :=
  let q := d.part
  let c := d.course
  let w := arrivalWho s q
  match (brickReady s q c w).2, readHeader (brickReady s q c w).1 q c w with
  | false, _ => (brickReady s q c w).1
  | true, (s, none) => s
  | true, (s, some h) =>
    if !headerAgrees s q c h || !h.stale || decide (h.epoch ≠ d.epoch) || h.applied.testBit d.rank then s
    else
      let applied := h.applied ||| 2 ^ d.rank
      let whole := decide (applied = dataMask s q c)
      match applyMortar s q c h.row d.rank ds { h with applied := applied, stale := !whole } w with
      | (s, .applied) =>
        let s := countApplied s d.bytes.length
        if whole then
          let s := dropEncode s q c
          if e.sid.isNone then spareReady (setReg s (K.RB_BRICKS_LEFT q) (reg s (K.RB_BRICKS_LEFT q) - 1)) q else s
        else putEncode s { e with owed := e.owed.filter (fun r => decide (r ≠ d.rank)) }
      | (s, _) => s

/-- An epoch for the comparisons of R267: the value an encode at epoch 0 writes ranks below every epoch. -/
def epochRank (e : Nat) : Nat := if e = 2 ^ 48 - 1 then 0 else e + 1

/-- Treat a state delta at its holder (R267). -/
def treatDelta (s : State) (d : HeldDelta) : State :=
  let q := d.part
  let c := d.course
  let w := arrivalWho s q
  match unpackBrick d.bytes with
  | none => s
  | some ds =>
    match encodeAt s q c with
    | some e => if e.begun && !e.stopped && decide (d.epoch = (e.epoch + 2 ^ 48 - 1) % 2 ^ 48) then applyAnswer s e d ds else holdDelta s d
    | none =>
      let ready := brickReady s q c w
      let s := ready.1
      if !ready.2 ∨ (openRepair s q c (ownRank s q)).isSome then holdDelta s d
      else
        let r := readHeader s q c w
        let s := r.1
        let usable := match r.2 with | some h => if headerUsable s q c h then some h else none | none => none
        match usable with
        | none =>
          let stale := match r.2 with | some h => headerAgrees s q c h && h.stale | none => false
          let s := holdDelta s d
          if stale then s else (startRepair (bump s K.MIX_HEADER_BAD 1) q c (ownRank s q) fullMask false).1
        | some h =>
          if epochRank d.epoch < epochRank h.epoch then sendAck s q d.rank d.src 0 c d.epoch 3
          else if h.epoch = d.epoch ∧ h.applied.testBit d.rank then sendAck s q d.rank d.src 0 c d.epoch 1
          else
            let applied := if h.epoch = d.epoch then h.applied else 0
            match applyMortar s q c h.row d.rank ds { h with epoch := d.epoch, applied := applied ||| 2 ^ d.rank } w with
            | (s, .applied) => sendAck (countApplied s d.bytes.length) q d.rank d.src 0 c d.epoch 0
            | (s, .poisoned mask) => (startRepair (holdDelta s d) q c (ownRank s q) mask false).1
            | (s, .cannot) => holdDelta s d

/-- Treat again the deltas held for a course, in the order in which they came (R267). -/
def retryHeld (s : State) (q c : Nat) : State :=
  let l := s.mixer.held.filter (fun d => decide (d.part = q ∧ d.course = c))
  l.foldl treatDelta { s with mixer := { s.mixer with held := s.mixer.held.filter (fun d => decide (¬ (d.part = q ∧ d.course = c))) } }

/-- The same for every course of a partition. -/
def retryAllHeld (s : State) (q : Nat) : State :=
  (distinct ((s.mixer.held.filter (fun d => decide (d.part = q))).map HeldDelta.course)).foldl (fun s c => retryHeld s q c) s

/-- Treat a gradient brick at its holder (R266). DESIGN CHOICE: log entry 43. -/
def treatGradient (s : State) (q c j rank node e : Nat) (b : List Byte) (ds : List (List Byte)) : State :=
  let w := arrivalWho s q
  let ready := brickReady s q c w
  let r := readHeader ready.1 q c w
  let s := r.1
  let sane := match r.2 with | some h => if headerAgrees s q c h then some h else none | none => none
  let begun := s.mixer.begun.contains (q, c)
  let go := fun (s : State) (h : Header) =>
    if h.applied.testBit rank then sendAck s q rank node 1 (ownCourse s q c) e 1
    else
      let applied := h.applied ||| 2 ^ rank
      let whole := decide (applied = dataMask s q c)
      match applyMortar s q c j rank ds { h with applied := applied, stale := !whole } w with
      | (s, .applied) =>
        let s := if whole then { s with mixer := { s.mixer with resend := s.mixer.resend.filter (fun x => decide (x ≠ (q, c))) } } else s
        sendAck (countApplied s b.length) q rank node 1 (ownCourse s q c) e 0
      | (s, _) => s
  let restart := fun (s : State) (again : Bool) =>
    match restartGradient s q c j e w with
    | (s, none) => s
    | (s, some h) =>
      let s := { s with mixer := { s.mixer with begun := if begun then s.mixer.begun else (q, c) :: s.mixer.begun } }
      go (if again then sendResendReqs s q c e else s) h
  if !ready.2 then ready.1
  else
  match sane with
  | none => restart s begun
  | some h =>
    if h.mapEpoch ≠ reg s (K.MAP_EPOCH q) ∨ h.epoch < e then restart s false
    else if e < h.epoch then sendAck s q rank node 1 (ownCourse s q c) e 3
    else go s h

/-- A packed brick arrives (R249, R389). -/
def takeBrick (s : State) (q : Nat) (p : Packet) : State :=
  match assemble s p (ceilDiv (wyLength p) 64) with
  | (s, none) => s
  | (s, some ls) =>
    if lineBad ls ≠ [] then bump s K.MIX_POISON_DROPPED 1
    else
      let kind := wyKind p
      let course := wyCourse p
      let c := courseFor s q kind course
      let rank := wyRank p
      let e := wyEpoch p
      let b := (lineData ls).take (wyLength p)
      let limit := if kind = 1 then gradCourses s q else codedCourses s q
      if wyId p ≠ reg s (K.WYTHE_ID q) ∨ limit ≤ course ∨ isData s q c rank = false ∨ (rowOf s q c (ownRank s q)).isNone then
        sendAck (bump s K.MIX_MISDIRECTED 1) q rank p.src kind course e 2
      else
        match (if kind ≤ 1 then unpackBrick b else none) with
        | none => sendAck (bump s K.MIX_MALFORMED 1) q rank p.src kind course e 2
        | some ds =>
          if kind = 1 then treatGradient s q c ((rowOf s q c (ownRank s q)).getD 0) rank p.src e b ds
          else treatDelta (retryHeld s q c) { part := q, course := c, rank := rank, epoch := e, bytes := b, src := p.src }

/-- WY_ACK arrives (R268, R304, R307). -/
def takeAck (s : State) (q : Nat) (p : Packet) : State :=
  let kind := wyKind p
  let c := courseFor s q kind (wyCourse p)
  let rank := wyRank p
  let code := wyCode p
  let kept := findKept s q kind c (wyEpoch p)
  let s :=
    if code = 0 ∧ kind = 0 ∧ s.members.readyOwed.contains (q, rank) ∧ wyEpoch p = reg s (K.EPOCH q) then
      { s with members := { s.members with readyOwed := s.members.readyOwed.filter (fun r => decide (r ≠ (q, rank))) } }
    else if code ≤ 1 then (match kept with | some k => ackKept s k rank | none => s)
    else if code = 2 then
      let s := bump s K.ACK_REFUSED 1
      match kept with
      | some k => refuseKept s k rank 2
      | none =>
        match encodeAt s q c with
        | some e =>
          if kind = 0 ∧ e.epoch = wyEpoch p ∧ e.owed.contains rank ∧ !e.stopped then
            raise (putEncode s { e with stopped := true, owed := [rank] }) 0x05 stMIX 0 (some q) false (rank + 2 * 256)
          else s
        | none => s
    else (match kept with | some k => refuseKept s k rank 3 | none => bump s K.ACK_STALE 1)
  mixWake s q

/-- A gradient course of this block that its seal has not reached. -/
def sealPending (s : State) (q c : Nat) : Bool :=
  let name := brickName s q c
  let seals := (listOf s q).filter (fun e => e.isSeal && decide (e.first ≤ name ∧ name < e.first + e.names))
  s.tracker.streams.any (fun y => y.taken && y.finish.isNone && decide (y.d.part = q) &&
      ((decide (y.d.opcode = 0x70) && seals.any (fun e => decide (e.sid = y.id)) && decide (y.d.src + 16 * y.pos ≤ name)) ||
       (decide (y.d.opcode = 0x71) && seals.isEmpty && decide (y.pos ≤ ownCourse s q c)))) ||
    (seals.isEmpty && !s.mixer.doneSeal.contains q)

/-- WY_RESEND_REQ arrives at a data member (R266). -/
def takeResendReq (s : State) (q : Nat) (p : Packet) : State :=
  let c := courseFor s q 1 (wyCourse p)
  let r := wyRank p
  let e := wyEpoch p
  let w := arrivalWho s q
  if wyId p ≠ reg s (K.WYTHE_ID q) ∨ e ≠ reg s (K.EPOCH q) ∨ gradCourses s q ≤ wyCourse p ∨ isData s q c (ownRank s q) = false ∨ (rowOf s q c r).isNone ∨
      sealPending s q c then s
  else
    match findKept s q 1 c e with
    | some k =>
      let k := { k with owed := if k.owed.contains r then k.owed else k.owed ++ [r] }
      sendKept (putKept s k) k r w
    | none =>
      let k : Kept := { part := q, sid := 0, kind := 1, course := c, epoch := e, unit := 0, rows := [r], sent := 1, owed := [r], refused := false, len := 0, lines := [], who := w }
      sendKept { s with mixer := { s.mixer with kept := s.mixer.kept ++ [k] } } k r w

/-- Read this block's own brick for an answer, poisoned lines repaired first; none while it cannot be read (R307, R308). -/
def readOwnBrick (s : State) (q c : Nat) (w : Who) : State × Option (List (List Byte)) :=
  if unbuilt s q c then ((startRepair s q c (ownRank s q) fullMask true).1, none)
  else if !(brickReady s q c w).2 then ((brickReady s q c w).1, none)
  else
    match readBrickTiles s q w (rangeFrom (brickName s q c) 16) with
    | (s, none) => ((startRepair s q c (ownRank s q) fullMask false).1, none)
    | (s, some ts) =>
      let bad := ts.foldl (fun a (t : Tile) => a ||| t.info.poison.toNat) 0
      let s := brickUsed s q c
      if bad = 0 then (s, some (ts.map Tile.data))
      else
        match startRepair s q c (ownRank s q) bad false with
        | (s, .done r) => (dropRepair s q c (ownRank s q) false, some ((List.range 16).map (fun t =>
            (patchTile r.mask r.sum t ((List.range 64).filter (fun j => bad.testBit j)) ((ts[t]?).getD (zeroTile 0))).data)))
        | (s, _) => (s, none)

/-- WY_ENCODE_REQ arrives (R307). -/
def takeEncodeReq (s : State) (q : Nat) (p : Packet) : State :=
  let c := wyCourse p
  let e := wyEpoch p
  let w := arrivalWho s q
  if wyId p ≠ reg s (K.WYTHE_ID q) ∨ codedCourses s q ≤ c ∨ isData s q c (ownRank s q) = false then
    sendAck (bump s K.MIX_MISDIRECTED 1) q (wyRank p) p.src 0 c e 2
  else if e < reg s (K.EPOCH q) then
    sendRank s q (wyRank p) { pkt0 with type := 0x14, w4 := wyWord s q (ownRank s q) 0 0, w5 := BitVec.ofNat 64 c, w6 := BitVec.ofNat 64 e } [] w
  else
    match readOwnBrick s q c w with
    | (s, none) => s
    | (s, some ds) => let b := packBrick ds; sendBrick (bump (chargeRepair s b.length) K.RPT_REPAIR_BYTES b.length) q 0 c ((e + 2 ^ 48 - 1) % 2 ^ 48) b (wyRank p) w

/-- WY_ENCODE_RETRY arrives: the member is asked no more in this epoch, and the course starts again in the next (R307). -/
def takeEncodeRetry (s : State) (q : Nat) (p : Packet) : State :=
  match encodeAt s q (wyCourse p) with
  | some e => if e.epoch = wyEpoch p ∧ !e.stopped then putEncode s { e with owed := e.owed.filter (fun r => decide (r ≠ wyRank p)) } else s
  | none => s

/-- WY_LEDGER arrives (R273): a late record of a committed step is passed over. DEDUCED: log entry 42. -/
def takeLedger (s : State) (q : Nat) (p : Packet) : State :=
  if wyId p ≠ reg s (K.WYTHE_ID q) ∨ wyEpoch p < reg s (K.EPOCH q) ∨ lineBad p.payload ≠ [] then s
  else
    let b := lineData p.payload
    mixWake (putRecord s { part := q, rank := wyRank p, epoch := wyEpoch p, opt := leAt b 0 8, sched := leAt b 8 8, pos := leAt b 16 8 }) q

/-- WY_READY arrives: the rows of a spare are ready in an epoch (R304). -/
def takeReady (s : State) (q : Nat) (p : Packet) : State :=
  let r := wyRank p
  if wyId p ≠ reg s (K.WYTHE_ID q) ∨ rankState s q r ≠ 2 then s
  else
    let e := (q, r, wyEpoch p)
    let s := { s with members := { s.members with ready := if s.members.ready.contains e then s.members.ready else e :: s.members.ready } }
    sendAck s q r p.src 0 0 (wyEpoch p) 0

/-- Bytes that RDX lanes sum for the repointer (R200). -/
def gfSummed (s : State) (n : Nat) : State :=
  if reg s K.RDX_MODE ≠ 0 ∧ reg s K.RDX_REPAIR_GROUPS ≠ 0 then bump s K.RDX_GF_BYTES n else s

/-- WY_REPAIR arrives: the root sum of this block's own decode, or a child's sum for a contribution (R299). -/
def takeRepair (s : State) (q : Nat) (p : Packet) : State :=
  let c := wyCourse p
  let lost := bits p.w4.toNat 41 37
  let pos := bits p.w5.toNat 50 44
  let mask := p.w6.toNat
  match assemble s p (maskLines mask + 1) with
  | (s, none) => s
  | (s, some ls) =>
    if wyId p ≠ reg s (K.WYTHE_ID q) then s
    else
      let sum := lineData ls
      let bad := lineBad ls
      let s :=
        if pos = 0 then
          match openRepair s q c lost with
          | some r => if r.mask = mask then againRepairs repairFuel (repairArrived s r sum bad) else s
          | none => s
        else
          let s := gfSummed s (sum.length - 64)
          match s.contribs.find? (fun d => decide (d.part = q ∧ d.course = c ∧ d.lost = lost ∧ d.mask = mask)) with
          | some d =>
            let d' := { d with sum := bytesXor d.sum sum, bad := bad ++ d.bad }
            if d.asked then (if d.owed.contains pos then flushContrib s { d' with owed := d.owed.filter (fun k => decide (k ≠ pos)) } else s)
            else if d.owed.contains pos then s
            else putContrib s { d' with owed := pos :: d.owed }
          | none => putContrib s { part := q, course := c, lost := lost, mask := mask, pos := pos - lowBit pos, parent := 0, owed := [pos], sum := sum, bad := bad,
                                   coef := 0, asked := false, own := false }
      mixWake (retryStalled (retryAllHeld (lateProducts s q) q)) q

/-- WY_REPAIR_REQ arrives: this block takes its place in the tree (R299). -/
def takeRepairReq (s : State) (q : Nat) (p : Packet) : State :=
  if wyId p ≠ reg s (K.WYTHE_ID q) ∨ codedCourses s q + gradCourses s q ≤ wyCourse p then s
  else contribute s q (wyCourse p) (bits p.w4.toNat 41 37) (p.w6.toNat / 256 * 256 + bits p.w4.toNat 49 42) (bits p.w5.toNat 50 44) (p.w6.toNat % 256) (wyRank p)
    ((List.range 3).filter (fun j => p.w5.toNat.testBit (51 + j))) (p.w5.toNat.testBit 54)
    (if bits p.w5.toNat 60 55 = 0 then none else some (bits p.w5.toNat 60 55 - 1))

/-- WY_BRICK of kind 0, a state delta, arriving (R243, R249, R267). -/
def execWyBrickState (p : Packet) (s : State) : Host.Outcome State Fault Refusal :=
  whenWorking s (if wyKind p = 1 then s else rxWythe s p 0x10 (fun s q => mixWake (takeBrick s q p) q))

/-- WY_BRICK of kind 1, a gradient brick, arriving (R249, R266). -/
def execWyBrickGradient (p : Packet) (s : State) : Host.Outcome State Fault Refusal :=
  whenWorking s (if wyKind p ≠ 1 then s else rxWythe s p 0x10 (fun s q => mixWake (takeBrick s q p) q))

/-- WY_ACK arriving (R268). -/
def execWyAck (p : Packet) (s : State) : Host.Outcome State Fault Refusal := whenWorking s (rxWythe s p 0x11 (fun s q => takeAck s q p))

/-- WY_RESEND_REQ arriving (R266). -/
def execWyResendReq (p : Packet) (s : State) : Host.Outcome State Fault Refusal := whenWorking s (rxWythe s p 0x12 (fun s q => takeResendReq s q p))

/-- WY_ENCODE_REQ arriving (R307). -/
def execWyEncodeReq (p : Packet) (s : State) : Host.Outcome State Fault Refusal := whenWorking s (rxWythe s p 0x13 (fun s q => takeEncodeReq s q p))

/-- WY_ENCODE_RETRY arriving (R307). -/
def execWyEncodeRetry (p : Packet) (s : State) : Host.Outcome State Fault Refusal := whenWorking s (rxWythe s p 0x14 (fun s q => takeEncodeRetry s q p))

/-- WY_LEDGER arriving (R273). -/
def execWyLedger (p : Packet) (s : State) : Host.Outcome State Fault Refusal := whenWorking s (rxWythe s p 0x15 (fun s q => takeLedger s q p))

/-- WY_REPAIR arriving (R299). -/
def execWyRepair (p : Packet) (s : State) : Host.Outcome State Fault Refusal := whenWorking s (rxWythe s p 0x17 (fun s q => takeRepair s q p))

/-- WY_REPAIR_REQ arriving (R299). -/
def execWyRepairReq (p : Packet) (s : State) : Host.Outcome State Fault Refusal := whenWorking s (rxWythe s p 0x18 (fun s q => takeRepairReq (laneChecks s stRPT) q p))

/-- WY_READY arriving (R304). -/
def execWyReady (p : Packet) (s : State) : Host.Outcome State Fault Refusal := whenWorking s (rxWythe s p 0x19 (fun s q => takeReady s q p))

/-- DELTA_RESEND: a packed brick has no acknowledgement from a holder within COMMIT_ACK_US of its sending (R268). -/
def execDeltaResend (q kind course rank : Nat) (s : State) : Host.Outcome State Fault Refusal :=
  whenWorking s (
    match s.mixer.kept.find? (fun k => decide (k.part = q ∧ k.kind = kind ∧ k.course = courseFor s q kind course)) with
    | some k => if k.owed.contains rank && (k.rows.take k.sent).contains rank && !k.refused then sendKept (bump s K.DELTA_RESENDS 1) k rank k.who else s
    | none => s)

/-- ENCODE_REQ_RESEND: a data member has not answered an encode request within COMMIT_ACK_US (R307). -/
def execEncodeReqResend (q course rank : Nat) (s : State) : Host.Outcome State Fault Refusal :=
  whenWorking s (
    match encodeAt s q course with
    | some e => if e.owed.contains rank && !e.stopped && !s.mixer.arrived.contains (q, 1, e.epoch) then sendEncodeReq s q course rank e.epoch else s
    | none => s)

/-- VERSION_RETRY: COMMIT_ACK_US after a decode whose contributors' versions disagreed with a chosen row, or that still lacks
an answer, it is made again (R298). The discard itself is counted when the contributions arrive. -/
def execVersionRetry (q course lost : Nat) (s : State) : Host.Outcome State Fault Refusal :=
  whenWorking s (
    match openRepair s q course lost with
    | some r => (startRepairBy (dropRepair s q course lost r.hold) q course lost r.mask r.degraded r.prefs r.hold).1
    | none => s)

end Sys2Proof.Machine
end

