-- ==== Sys2Proof/Machine/Net.lean ====
section
/-! DEFINITION. The fabric's peers: heartbeats and silence (R285, R286, R336), discovery and link delays (R335, R340, R344), re-parenting and
replacement (R341), and the job-start broadcast (R342, R343). -/
namespace Sys2Proof.Machine

/-- Nodes of a partition's wythe peers (R336). -/
def wytheNodes (s : State) (q : Nat) : List Nat :=
  if hasWythe s q then ((List.range (wyN s q)).filter (fun r => decide (r ≠ ownRank s q))).filterMap (memberNode s q) else []

/-- Nodes of the barrier-tree parent, children and adopted positions (R336, R338). -/
def treeNodes (s : State) (q : Nat) : List Nat :=
  if reg s (K.BG_STATE q) = 1 then ((parentOf s q).toList ++ childrenOf s q).filterMap (positionNode s q) else []

/-- A partition's heartbeat set (R336). -/
def heartbeatSet (s : State) (q : Nat) : List Nat := (distinct (wytheNodes s q ++ treeNodes s q)).filter (fun n => decide (n ≠ reg s K.FP_NODE_ID))

/-- The union of the partitions' sets. -/
def heartbeatUnion (s : State) : List Nat := distinct ((List.range 16).flatMap (heartbeatSet s))

/-- A node's entry of the peer table. -/
def peerOf (s : State) (node : Nat) : Peer :=
  (s.fabric.peers.find? (fun p => decide (p.node = node))).getD
    { node := node, level := 0, nonce := 0, misses := 0, silent := false, deadNoted := false, restarted := false, known := false, heard := false }

/-- Write a node's entry. -/
def putPeer (s : State) (p : Peer) : State :=
  { s with fabric := { s.fabric with peers := s.fabric.peers.filter (fun x => decide (x.node ≠ p.node)) ++ [p] } }

/-- The level at which a packet of this type goes straight to a node: a link's echoes at the partition's level once it is fixed; what peers
exchange before that, and heartbeats, which are of no one partition, at the lowest level spoken (R335, R344). DEDUCED: log entry 51. -/
def peerLevel (s : State) (q type : Nat) : Nat := if (type = 0x32 ∨ type = 0x33) ∧ 3 ≤ reg s (K.FP_LEVEL q) then reg s (K.FP_LEVEL q) else 3

/-- Send a packet straight to a node. -/
def sendPeer (s : State) (q node : Nat) (p : Packet) : State :=
  sendPacket s { p with level := peerLevel s q p.type, partition := q, dst := node } (arrivalWho s q)

/-- The words of HEARTBEAT and HELLO (R320). -/
def bootWord (s : State) : Word64 := BitVec.ofNat 64 (reg s K.FP_BOOT_NONCE + reg s K.FP_LEVEL_MAX * 2 ^ 32)

/-- The level in force of a partition (R335): 0 where its nodes share none. -/
def fixLevel (s : State) (q : Nat) : State :=
  let ls := ((heartbeatSet s q).map (fun n => (peerOf s n).level)).filter (fun l => decide (l ≠ 0))
  let l := ls.foldl min (reg s K.FP_LEVEL_MAX)
  setReg s (K.FP_LEVEL q) (if l < 3 then 0 else l)

/-- The rank of a partition's map that names a node, its own apart. -/
def rankAt (s : State) (q node : Nat) : Option Nat :=
  if hasWythe s q then (List.range (wyN s q)).find? (fun r => decide (r ≠ ownRank s q ∧ memberNode s q r = some node)) else none

/-- Now, in FP port cycles. -/
def nowCycles (s : State) : Nat := fpCycles s (upNs s)

/-- Measure the link to a node: 16 ECHO packets (R340). A silent node would not answer. -/
def sendEchoes (s : State) (q node : Nat) : State :=
  if nodeSilent s node then s
  else
  let t := nowCycles s
  let old := s.barriers.echoes.filter (fun e => decide (e.1 ≠ node))
  let s := { s with barriers := { s.barriers with echoes := old ++ (List.range 16).map (fun i => (node, i, t)), best := smapErase s.barriers.best node } }
  (List.range 16).foldl (fun s i => sendPeer s q node { pkt0 with type := 0x32, w4 := BitVec.ofNat 64 i }) s

/-- Broadcast of a partition. -/
def bcastOf (s : State) (q : Nat) : Option Bcast := s.bcasts.find? (fun b => decide (b.part = q))
def putBcast (s : State) (b : Bcast) : State := { s with bcasts := s.bcasts.filter (fun x => decide (x.part ≠ b.part)) ++ [b] }

/-- A broadcast that runs. -/
def bcastRuns (s : State) (q : Nat) : Option Bcast := if reg s (K.BCAST_STATUS q) = 1 then bcastOf s q else none

def bcastFail (s : State) (q : Nat) : State := setReg s (K.BCAST_STATUS q) 3

/-- BCAST_RESUME to the parent (R342, R343). -/
def sendResume (s : State) (q : Nat) (b : Bcast) : State :=
  match (parentOf s q).bind (positionNode s q) with
  | some n => sendNode s q n { pkt0 with type := 0x37, w4 := BitVec.ofNat 64 b.job, w5 := BitVec.ofNat 64 b.low, w6 := BitVec.ofNat 64 (reg s (K.BG_POSITION q)) } [] (arrivalWho s q)
  | none => s

/-- Re-parent where the parent is silent (R341, R343). -/
def reparent (s : State) (q : Nat) : State :=
  let own := reg s (K.BG_POSITION q)
  if reg s (K.BG_STATE q) ≠ 1 then s
  else
    match parentOf s q, ancestorOf s q 5 own with
    | some p, some a =>
      if p = a ∨ !positionSilent s q p then s
      else
        let s := bump { s with barriers := { s.barriers with parents := smapPut s.barriers.parents q a } } K.FP_REPARENTS 1
        let s := match positionNode s q a with | some n => sendEchoes s q n | none => s
        let s := (s.barriers.sentUp.filter (fun b => decide (b.1 = q) && !s.mixer.released.contains b)).foldl (fun s b =>
          sendArrive s q b.2.1 b.2.2 own a (subtreeDelay s q b.2.1 b.2.2) true) s
        match bcastRuns s q with
        | some b => sendResume s q b
        | none => s
    | _, _ => s

/-- The node of position 0 is this. -/
def rootIs (s : State) (q node : Nat) : Bool := decide (reg s (K.BG_STATE q) = 1 ∧ positionNode s q 0 = some node)

/-- What a partition does of a peer's silence (R285, R341, R343). -/
def silentIn (s : State) (node q : Nat) : State :=
  let s :=
    match rankAt s q node with
    | some r =>
      if rankState s q r = 3 ∨ (reg s (K.SILENT_MASK q)).testBit r then s
      else
        let s := setRegBit s (K.SILENT_MASK q) r true
        let s := if s.members.silentNoted.contains (q, 0) then s
          else setReg { s with members := { s.members with silentNoted := (q, 0) :: s.members.silentNoted } } (K.SILENT_TIME q) (stamp s)
        raise s 0x06 stFP 0 (some q) false node
    | none => s
  let s := match rootIs s q node, bcastRuns s q with
    | true, some b => bcastFail (putBcast s { b with rootLost := true }) q
    | _, _ => s
  reparent s q

/-- Declare a peer silent (R285). -/
def declareSilent (s : State) (node : Nat) (restarted : Bool) : State :=
  let p := peerOf s node
  let s := putPeer s { p with silent := true, restarted := p.restarted || restarted, known := p.known && !restarted }
  let s := { s with barriers := { s.barriers with echoes := s.barriers.echoes.filter (fun e => decide (e.1 ≠ node)) } }
  (List.range 16).foldl (fun s q => silentIn s node q) s

/-- A silent peer's heartbeats have resumed (R286). -/
def resumed (s : State) (node : Nat) : State :=
  let s := putPeer s { peerOf s node with silent := false }
  (List.range 16).foldl (fun s q =>
    match rankAt s q node with
    | some r => if (reg s (K.SILENT_MASK q)).testBit r then raise (setRegBit s (K.SILENT_MASK q) r false) 0x07 stFP 0 (some q) false node else s
    | none => s) s

/-- A heartbeat arrives (R286, R336). -/
def takeHeartbeat (s : State) (p : Packet) : State :=
  let x := peerOf s p.src
  let nonce := p.w4.toNat % 2 ^ 32
  let s := putPeer s { x with nonce := nonce, misses := 0, level := bits p.w4.toNat 35 32, heard := true }
  if x.heard && decide (x.nonce ≠ nonce) then
    let s := bump { s with barriers := { s.barriers with delays := smapErase s.barriers.delays p.src } } K.FP_PEER_RESTARTS 1
    declareSilent s p.src true
  else if x.silent && !x.restarted then resumed s p.src
  else s

/-- Send one HEARTBEAT to each node of the union, and count the interval (R336). -/
def heartbeatTick (s : State) : State :=
  (heartbeatUnion s).foldl (fun s n =>
    let x := peerOf s n
    sendPeer (putPeer s { x with misses := x.misses + 1 }) 0 n { pkt0 with type := 0x30, w4 := bootWord s }) s

/-- HELLO arrives: a reply is recorded; of a node that discovers, the store numbers start at 0, and it is answered (R327, R344). DEDUCED: log entry 51. -/
def takeHello (s : State) (p : Packet) : State :=
  if p.w5.toNat.testBit 0 then
    putPeer s { peerOf s p.src with nonce := p.w4.toNat % 2 ^ 32, level := bits p.w4.toNat 35 32, known := true, heard := true }
  else
    let s := { s with fabric := { s.fabric with rx := s.fabric.rx.filter (fun t => decide (t.src ≠ p.src)) } }
    sendPeer s p.partition p.src { pkt0 with type := 0x31, w4 := bootWord s, w5 := 1 }

/-- ECHO_REPLY arrives: the least round trip less its reply's turnaround, halved, is the link's delay (R340). -/
def takeEchoReply (s : State) (p : Packet) : State :=
  let n := p.w4.toNat % 65536
  match s.barriers.echoes.find? (fun e => decide (e.1 = p.src ∧ e.2.1 = n)) with
  | none => s
  | some e =>
    let this := (nowCycles s - e.2.2, p.w5.toNat % 2 ^ 32)
    let best := match smapGet s.barriers.best p.src with | some b => if this.1 < b.1 then this else b | none => this
    let rest := s.barriers.echoes.filter (fun x => decide (¬ (x.1 = p.src ∧ x.2.1 = n)))
    let b := { s.barriers with echoes := rest, best := smapPut s.barriers.best p.src best }
    if rest.any (fun x => decide (x.1 = p.src)) then { s with barriers := b }
    else { s with barriers := { b with delays := smapPut b.delays p.src ((best.1 - best.2 + 1) / 2), best := smapErase b.best p.src } }

/-- Begin the discovery of a partition (R344). -/
def startDiscovery (s : State) (q : Nat) : State :=
  (heartbeatSet s q).foldl (fun s n =>
    let x := peerOf s n
    let s := putPeer s { x with known := false, restarted := false, silent := x.silent && !x.restarted }
    let s := { s with fabric := { s.fabric with txSeq := smapEraseRun s.fabric.txSeq (n * 16) (n * 16 + 16) } }
    sendPeer s q n { pkt0 with type := 0x31, w4 := bootWord s }) s

/-- Every node of the set has answered, or is silent. -/
def helloDone (s : State) (q : Nat) : Bool := (heartbeatSet s q).all (fun n => (peerOf s n).known || (peerOf s n).silent)

/-- Every tree link's delay is measured, those to silent nodes apart. -/
def echoDone (s : State) (q : Nat) : Bool := (treeNodes s q).all (fun n => nodeSilent s n || !s.barriers.echoes.any (fun e => decide (e.1 = n)))

/-- The bytes of tiles of a table homed in the yard. -/
def tableBytes (s : State) (q first n : Nat) : List Byte :=
  (rangeFrom first n).flatMap (fun name =>
    match slotOf s q name with
    | some k => (List.range 64).flatMap (fun j => (peekLine s.mem (yardAddr k j)).bytes)
    | none => [])

/-- The fingerprint of R344. -/
def fingerprint (s : State) (q : Nat) : Nat :=
  let wy := reg s (K.WYTHE_STATE q) = 1
  crc64 (natLe 4 (reg s K.FP_NODE_ID) ++ tableBytes s q (reg s (K.WIN_TABLE q) % 2 ^ 48) 1 ++ natLe 8 (reg s (K.APERTURE_FIRST q)) ++
    natLe 8 (reg s (K.APERTURE_NAMES q)) ++
    natLe 1 (wyK s q) ++ natLe 1 (wyM s q) ++ natLe 1 (ownRank s q) ++ natLe 4 (reg s (K.WYTHE_ID q)) ++ natLe 1 (reg s (K.BOND_SHIFT q)) ++
    natLe 8 (reg s (K.CODED_FIRST q)) ++ natLe 8 (codedCourses s q) ++
    (if wy then tableBytes s q (reg s (K.MEMBER_TABLE q) % 2 ^ 48) 1 else []) ++
    (if reg s (K.RG_STATE q) = 1 then tableBytes s q (reg s (K.RG_TABLE q) % 2 ^ 48) (ceilDiv (groupN s q) 512) else []) ++
    natLe 4 (reg s (K.BG_SIZE q)) ++ natLe 2 (reg s (K.BG_POSITION q)) ++ natLe 8 (reg s (K.BG_TABLE q)) ++
    (if reg s (K.BG_STATE q) = 1 then tableBytes s q (reg s (K.BG_TABLE q) % 2 ^ 48) (ceilDiv (reg s (K.BG_SIZE q)) 1024) else []))

/-- The warm set-up stands (R344). -/
def warm (s : State) (q : Nat) : Bool :=
  decide (reg s (K.JOB_FINGERPRINT q) = reg s (K.FP_FINGERPRINT q) ∧ fingerprint s q = reg s (K.FP_FINGERPRINT q) ∧ reg s (K.FP_LEVEL q) = 4) &&
    (heartbeatSet s q).all (fun n => (peerOf s n).known && !(peerOf s n).restarted)

/-- Send a broadcast tile to a position (R342). -/
def sendTile (s : State) (b : Bcast) (i pos : Nat) (t : Tile) : State :=
  match positionNode s b.part pos with
  | some n =>
    let w4 := BitVec.ofNat 64 (b.job + leAt (metaBytes t.info) 4 4 * 2 ^ 32)
    sendNode s b.part n { pkt0 with type := 0x36, whole := true, w4 := w4, w5 := BitVec.ofNat 64 i, w6 := BitVec.ofNat 64 b.dst } (tileLines t)
      (arrivalWho s b.part)
  | none => s

/-- What this block has written of a broadcast and is told of its positions below decides what it reports (R342). -/
def bcastReport (s : State) (q : Nat) : State :=
  match bcastRuns s q with
  | none => s
  | some b =>
    if b.count = some b.low ∧ !b.doneSent ∧ (childrenOf s q).all b.childDone.contains then
      let s := setReg (putBcast s { b with doneSent := true }) (K.BCAST_STATUS q) 2
      match (parentOf s q).bind (positionNode s q) with
      | some n => sendNode s q n { pkt0 with type := 0x38, w4 := BitVec.ofNat 64 b.job, w6 := BitVec.ofNat 64 (reg s (K.BG_POSITION q)) } [] (arrivalWho s q)
      | none => s
    else s

/-- The low index moves past the tiles written (R343); every 1,024th is reported. -/
def bcastAdvance : Nat → Bcast → Bcast
  | 0, b => b
  | fuel + 1, b => if b.seen.contains b.low then bcastAdvance fuel { b with low := b.low + 1, seen := b.seen.filter (fun i => decide (i ≠ b.low)) } else b

/-- Write tile i at its destination (R342): false where it waits. -/
def bcastWrite (s : State) (q i : Nat) (t : Tile) : State × Bool :=
  match bcastRuns s q with
  | none => (s, true)
  | some b =>
    match serveWrite s q (b.dst + i) t .plain with
    | (s, .fail _) => (bcastFail s q, true)
    | (s, .wait) => (s, false)
    | (s, _) =>
      let b' := bcastAdvance (b.seen.length + 1) { b with seen := i :: b.seen }
      let s := putBcast s b'
      (if b'.low / 1024 ≠ b.low / 1024 then sendResume s q b' else s, true)

/-- Read a broadcast's tile, here or in a peer, for a position: false where it waits. -/
def bcastRead (s : State) (b : Bcast) (i pos : Nat) (go : State → Tile → State × Bool) : State × Bool :=
  match serveRead s b.part ((if b.isRoot then b.src else b.dst) + i) with
  | (s, .ok t) => go s t
  | (s, .wait) => (s, false)
  | (s, .fail _) => (bcastFail s b.part, true)
  | (s, .peer win o) =>
    match sendLoad s b.part win o (.bcast b.part i pos) (arrivalWho s b.part) with
    | (s, .sent) => (s, true)
    | (s, .noTag) => (s, false)
    | (s, .refused) => (bcastFail s b.part, true)

/-- Send a position the tiles that its window and this block's own progress allow (R342). -/
def pumpChild (q pos : Nat) : Nat → State → State
  | 0, s => s
  | fuel + 1, s =>
    match bcastRuns s q with
    | none => s
    | some b =>
      let next := (smapGet b.childNext pos).getD 0
      let limit := min (if b.isRoot then b.count.getD 0 else b.low) ((smapGet b.childLow pos).getD 0 + 4096)
      if limit ≤ next then s
      else
        match bcastRead s b next pos (fun s t => (sendTile s b next pos t, true)) with
        | (s, false) => s
        | (s, true) =>
          match bcastRuns s q with
          | none => s
          | some b => pumpChild q pos fuel (putBcast s { b with childNext := smapPut b.childNext pos (next + 1) })

/-- The root's own copies. -/
def pumpOwn (q : Nat) : Nat → State → State
  | 0, s => s
  | fuel + 1, s =>
    match bcastRuns s q with
    | none => s
    | some b =>
      let i := (smapGet b.childNext 65536).getD b.low
      if !b.isRoot ∨ b.count.getD 0 ≤ i then s
      else if i < b.low ∨ b.seen.contains i then pumpOwn q fuel (putBcast s { b with childNext := smapPut b.childNext 65536 (i + 1) })
      else
        match bcastRead s b i 65536 (fun s t => bcastWrite s q i t) with
        | (s, false) => s
        | (s, true) =>
          match bcastRuns s q with
          | none => s
          | some b => pumpOwn q fuel (putBcast s { b with childNext := smapPut b.childNext 65536 (i + 1) })

/-- Carry a partition's broadcast on. DESIGN CHOICE: log entry 53. -/
def bcastPump (s : State) (q : Nat) : State :=
  let s := match bcastRuns s q with | some b => pumpOwn q (if b.isRoot then b.count.getD 0 + 1 else 0) s | none => s
  let s := (childrenOf s q).foldl (fun s c => pumpChild q c 4097 s) s
  bcastReport s q

/-- A broadcast tile's metadata, as its packet and its lines carry it. -/
def bcastTile (p : Packet) (ls : List Line) : Tile :=
  let data := lineData ls
  let m := metaOf (zeros 4 ++ natLe 4 (p.w4.toNat / 2 ^ 32) ++ zeros 8)
  { data := data, info := { m with crc := BitVec.ofNat 32 (crc32c data), poison := maskOf (lineBad ls) } }

/-- A broadcast that ended with its root goes on where position 0 is replaced and sends the same job epoch's tiles again: this block reports how
far it is, so that the tiles it holds are not all sent again (R343). DEDUCED: log entry 53. -/
def reviveBcast (s : State) (q job : Nat) : State :=
  match bcastOf s q with
  | none => s
  | some b =>
    if b.job = job ∧ b.rootLost = true ∧ reg s (K.BCAST_STATUS q) = 3 ∧ positionSilent s q 0 = false then
      sendResume (setReg (putBcast s { b with rootLost := false }) (K.BCAST_STATUS q) 1) q b
    else s

/-- Act on a broadcast tile that is whole (R342, R343). -/
def takeTile (s : State) (p : Packet) : State :=
  let q := p.partition
  let job := p.w4.toNat % 2 ^ 32
  let i := p.w5.toNat % 2 ^ 32
  let isNew := match bcastOf s q with | some b => decide (b.job ≠ job) | none => true
  let s :=
    if isNew then
      let b : Bcast :=
        { part := q, job := job, isRoot := false, src := 0, count := some (Config.bcastTiles q job), dst := p.w6.toNat % 2 ^ 48,
          low := 0, seen := [], childLow := [], childNext := [], childDone := [], doneSent := false, rootLost := false }
      setReg (putBcast s b) (K.BCAST_STATUS q) 1
    else reviveBcast s q job
  match bcastOf s q with
  | none => s
  | some b =>
    if i < b.low ∨ b.seen.contains i then bump s K.FP_BCAST_DUPLICATES 1
    else if b.low + 4096 ≤ i then s
    else
      match bcastWrite s q i (bcastTile p p.payload) with
      | (s, true) => bcastPump s q
      | (s, false) => stallReq s p

/-- Tiles that waited, and broadcasts that can go on. -/
def retryBcasts (s : State) : State :=
  let s := (s.fabric.stalled.filter (fun p => decide (p.type = 0x36))).foldl takeTile
    { s with fabric := { s.fabric with stalled := s.fabric.stalled.filter (fun p => decide (p.type ≠ 0x36)) } }
  (s.bcasts.map Bcast.part).foldl bcastPump s

/-- A source tile of a broadcast has come from a peer. -/
def bcastLoaded (s : State) (q i pos : Nat) (t : Option Tile) : State :=
  match bcastRuns s q, t with
  | some b, some t => bcastPump (if pos = 65536 then (bcastWrite s q i t).1 else sendTile s b i pos t) q
  | some _, none => bcastFail s q
  | none, _ => s

/-- BCAST_RESUME arrives: a position that re-parented is adopted and resent from its index (R342, R343). -/
def takeResume (s : State) (p : Packet) : State :=
  let q := p.partition
  let pos := p.w6.toNat % 65536
  let low := p.w5.toNat % 2 ^ 32
  match bcastRuns s q with
  | none => s
  | some b =>
    if b.job ≠ p.w4.toNat % 2 ^ 32 then s
    else
      let fresh := !(childrenOf s q).contains pos
      let s := if fresh then { s with barriers := { s.barriers with adopted := s.barriers.adopted ++ [(q, pos)] } } else s
      let next := (smapGet b.childNext pos).getD 0
      bcastPump (putBcast s { b with childLow := smapPut b.childLow pos low, childNext := smapPut b.childNext pos (if fresh then low else max low (min next (low + 4096))) }) q

/-- BCAST_DONE arrives (R342). -/
def takeDone (s : State) (p : Packet) : State :=
  let q := p.partition
  match bcastRuns s q with
  | some b => if b.job = p.w4.toNat % 2 ^ 32 then bcastReport (putBcast s { b with childDone := p.w6.toNat % 65536 :: b.childDone }) q else s
  | none => s

/-- Act on a packet of the fabric's own traffic. -/
def rxPlain (s : State) (p : Packet) (type : Nat) (f : State → Packet → State) : State :=
  match rxBase s p type with
  | (s, false) => s
  | (s, true) => f s p

/-- A packet of a partition with a barrier group. -/
def rxTree (s : State) (p : Packet) (type : Nat) (f : State → Packet → State) : State :=
  rxPlain s p type (fun s p => if reg s (K.BG_STATE p.partition) = 1 then f s p else s)

/-- HEARTBEAT_TICK: every 100 µs (R336). -/
def execHeartbeatTick (s : State) : Host.Outcome State Fault Refusal := whenWorking s (heartbeatTick s)

/-- HEARTBEAT arriving (R286, R336). -/
def execHeartbeat (p : Packet) (s : State) : Host.Outcome State Fault Refusal := whenWorking s (rxPlain s p 0x30 takeHeartbeat)

/-- ECHO arriving: the reply carries its turnaround (R340). -/
def execEcho (p : Packet) (s : State) : Host.Outcome State Fault Refusal :=
  whenWorking s (rxPlain s p 0x32 (fun s p =>
    let d := draw s
    sendPeer d.1 p.partition p.src { pkt0 with type := 0x33, w4 := BitVec.ofNat 64 (p.w4.toNat % 65536), w5 := BitVec.ofNat 64 (Config.echoTurnaround d.2 % 2 ^ 32) }))

/-- BCAST_DATA arriving (R342, R343). -/
def execBcastData (p : Packet) (s : State) : Host.Outcome State Fault Refusal :=
  whenWorking s (rxTree s p 0x36 (fun s p =>
    match assemble s p 64 with
    | (s, some l) => takeTile s { p with payload := l }
    | (s, none) => s))

/-- BCAST_RESUME arriving (R342, R343). -/
def execBcastResume (p : Packet) (s : State) : Host.Outcome State Fault Refusal := whenWorking s (rxTree s p 0x37 takeResume)

/-- BCAST_DONE arriving (R342). -/
def execBcastDone (p : Packet) (s : State) : Host.Outcome State Fault Refusal := whenWorking s (rxTree s p 0x38 takeDone)

end Sys2Proof.Machine
end

