-- ==== Sys2Proof/Machine/Snp.lean ====
section
/-! DEFINITION. Snapshots (R416-R434): export and restore sessions, their records, and the hold on epoch-bound work (R418). -/
namespace Sys2Proof.Machine

/-- Bricks a partition's rank holds as data (R419: all of them without a wythe map). -/
def isMortar (s : State) (q c : Nat) : Bool := hasWythe s q && (rowOf s q c (ownRank s q)).isSome
def dataBricks (s : State) (q : Nat) : Nat := ((List.range (codedCourses s q)).filter (fun c => !isMortar s q c)).length

/-- A partition's session. -/
def snapOf (s : State) (q : Nat) : Option SnapSession := s.snaps.find? (fun x => decide (x.part = q))
def putSnap (s : State) (x : SnapSession) : State := { s with snaps := s.snaps.filter (fun y => decide (y.part ≠ x.part)) ++ [x] }
def dropSnap (s : State) (q : Nat) : State := { s with snaps := s.snaps.filter (fun y => decide (y.part ≠ q)) }

/-- The hold of R257 is in force: a MIX_COMMIT of the partition has started and not ended. -/
def commitHolds (s : State) (q : Nat) : Bool :=
  s.tracker.streams.any (fun y => y.taken && y.finish.isNone && decide (y.d.part = q ∧ y.d.opcode = 0x72 ∧ y.hold = 0))

/-- The hold of R418 is in force: a session is open, a failed restore's among them (R430). -/
def snapHolds (s : State) (q : Nat) : Bool := decide (reg s (K.SNP_STATE q) ≠ 0)

/-- A session closes and its hold ends (R423, R429). -/
def closeSession (s : State) (q : Nat) : State :=
  let s := setReg (dropSnap s q) (K.SNP_STATE q) 0
  (s.tracker.streams.filter (fun x => decide (x.d.part = q ∧ x.hold = 2))).foldl (fun s x =>
    if commitHolds s q then updStream s x.id (fun y => { y with hold := 1 }) else releaseStream s q x.id) s

/-- Open a session. -/
def openSession (s : State) (q kind step id : Nat) : State :=
  let s := setRegs s [(K.SNP_STATE q, kind), (K.SNP_STEP q, step), (K.SNP_SNAP_ID q, id), (K.SNP_RECORDS q, 0), (K.SNP_DIGEST q, 0), (K.SNP_LAST_NAME q, nullName)]
  putSnap s { part := q, bricks := 0, hasLedger := false, ledger := [] }

/-- DETAIL of SNP_PHASE where the conditions of R418 do not hold. -/
def cutRefuses (s : State) (q : Nat) (failedOk : Bool) : Option Nat :=
  if reg s (K.STEP_PHASE q) ≠ 1 ∨ s.mixer.bound.contains q then some (reg s (K.STEP_PHASE q))
  else if hasWythe s q && (ranksIn s q 1 ≠ []) then some 0xFF
  else if reg s (K.SNP_STATE q) = 0 ∨ (failedOk ∧ reg s (K.SNP_STATE q) = 3) then none
  else some 0xFE

/-- SNP_BEGIN is decided at its acceptance, where the hold begins (R418). DEDUCED: log entry 56. -/
def snpAccept (s : State) (sid : Nat) : State :=
  match findStream s sid with
  | none => s
  | some x =>
    if x.d.opcode ≠ 0x80 ∨ x.ordinal ≠ 0 then s
    else
      match cutRefuses s x.d.part false with
      | some d => judge s sid 0x44 d
      | none => letIn (openSession s x.d.part 1 (reg s (K.EPOCH x.d.part)) (x.d.scalar % 2 ^ 32)) sid

/-- SNP_BEGIN (R418). -/
def beginRun (s : State) (x : Stream) : State :=
  match judgement x with
  | some (a, b) => endStream s x.id a b
  | none => if x.ordinal = 1 then endStream s x.id 0 (dataBricks s x.d.part) else s

/-- The header of a record (R420). -/
def recordHeader (s : State) (q kind format tileFormat tag course name : Nat) (payload : List Byte) : List Byte :=
  let b := natLe 8 (1 + kind * 2 ^ 16 + format * 2 ^ 20 + tileFormat * 2 ^ 24 + reg s (K.SNP_SNAP_ID q) * 2 ^ 32) ++
    natLe 8 (reg s (K.SNP_STEP q) % 2 ^ 48 + selfRank s q * 2 ^ 48 + tag * 2 ^ 53) ++ natLe 8 course ++ natLe 8 name ++
    natLe 8 (reg s (K.WYTHE_ID q) + payload.length * 2 ^ 32) ++ natLe 8 (crc32c payload) ++ zeros 12
  b ++ natLe 4 (crc32c b)

/-- A record's digest term (R422). -/
def recordTerm (rank kind name : Nat) (hdrCrc payloadCrc : Nat) : Nat := mix (name + rank * 2 ^ 48 + kind * 2 ^ 53) (hdrCrc * 2 ^ 32 + payloadCrc)

/-- Count a whole record of the session (R422). -/
def countRecord (s : State) (q term : Nat) : State :=
  setRegs (bump s (K.SNP_RECORDS q) 1) [(K.SNP_DIGEST q, (reg s (K.SNP_DIGEST q) + term) % 2 ^ 64)]

/-- Count a state record, whose brick is now the session's last. -/
def countState (s : State) (q name term : Nat) : State :=
  let s := setReg (countRecord s q term) (K.SNP_LAST_NAME q) name
  match snapOf s q with
  | some x => putSnap s { x with bricks := x.bricks + 1 }
  | none => s

/-- Deliver the whole tiles of a stream's record bytes, and with `last` the rest of them (R419). -/
def flushRecords (sid : Nat) (last : Bool) : Nat → State → State
  | 0, s => s
  | fuel + 1, s =>
    match findStream s sid with
    | none => s
    | some x =>
      let n := min 4096 x.text.length
      if n = 0 ∨ (n < 4096 ∧ !last) then s
      else
        let s := deliverEp s x x.tilesDone (mkTile (bytesAt x.text 0 4096) 0 n 0)
        let s := bump (addDone s sid 1) K.SNP_OUT_BYTES n
        flushRecords sid last fuel (updStream s sid (fun y => { y with text := y.text.drop 4096 }))

/-- The record that waits for its last byte's delivery is whole: `ordinal` holds its term plus one. -/
def settleRecord (s : State) (sid name : Nat) : State :=
  match findStream s sid with
  | none => s
  | some x =>
    if x.ordinal = 0 then s
    else updStream (countState s x.d.part name (x.ordinal - 1)) sid (fun y => { y with ordinal := 0, mark := y.mark + 1 })

/-- DETAIL of SNP_RANGE (R419). -/
def exportRange (s : State) (x : Stream) : Option Nat :=
  let q := x.d.part
  let first := codedFirst s q
  let last := reg s (K.SNP_LAST_NAME q)
  if x.d.src % 16 ≠ first % 16 ∨ x.d.count % 16 ≠ 0 ∨ within x.d.src x.d.count first (16 * codedCourses s q) = false then some 1
  else if (List.range (x.d.count / 16)).any (fun i => isMortar s q ((x.d.src - first) / 16 + i)) then some 2
  else if last ≠ nullName ∧ x.d.src ≤ last then some 3
  else none

/-- The tiles of a brick suit an export (R419). -/
def exportSuits (d : Desc) (ts : List Tile) : Bool :=
  let f := (ts.map (fun t => t.info.format)).headD 0
  ts.all (fun t => !t.info.transposed && decide (t.info.format = if d.outFormat = 0 then f else 1))

/-- A brick's payload (R421), and the narrowings it took (R100). -/
def exportPayload (d : Desc) (ts : List Tile) : List Byte × List Narrowed :=
  if d.outFormat = 2 then
    let ns := (ts.flatMap (fun t => words32 t.data)).map (narrow fmtBF16)
    (packElems 2 (ns.map Narrowed.value), ns)
  else ((ts.map Tile.data).flatten, [])

/-- Export bricks in ascending course (R419). -/
def exportLoop (sid : Nat) : Nat → State → State
  | 0, s => s
  | fuel + 1, s =>
    match findStream s sid with
    | none => s
    | some x =>
      let q := x.d.part
      if x.pos = x.d.count then
        let s := settleRecord (flushRecords sid true 2 s) sid (x.d.src + x.pos - 16)
        match findStream s sid with
        | some y => endStream s sid 0 y.mark
        | none => s
      else
        let name := x.d.src + x.pos
        match readNames s x (rangeFrom name 16) with
        | (s, .wait) => s
        | (s, .fail a b) => failStream s sid a b
        | (s, .ok ts) =>
          if ts.any (fun t => decide (t.info.poison ≠ 0)) then failStream s sid 0x24 0
          else if !exportSuits x.d ts then endStream s sid 0x46 x.mark
          else if reg s K.SNP_MODE = 2 then
            let s := (List.range 16).foldl (fun s i => addDone (deliverEp s x (x.tilesDone + i) ((ts[i]?).getD (zeroTile 0))) sid 1) s
            exportLoop sid fuel (updStream (countState s q name 0) sid (fun y => { y with pos := y.pos + 16, mark := y.mark + 1 }))
          else
            let p := exportPayload x.d ts
            let h := recordHeader s q 0 x.d.outFormat ((ts.map (fun t => t.info.format)).headD 0) (x.d.arg % 256) ((name - codedFirst s q) / 16) name p.1
            let term := recordTerm (selfRank s q) 0 name (leAt h 60 4) (crc32c p.1)
            let s := updStream (countNarrow s p.2) sid (fun y => { y with text := y.text ++ h ++ p.1 })
            let s := settleRecord (flushRecords sid false 20 s) sid (name - 16)
            exportLoop sid fuel (updStream s sid (fun y => { y with pos := y.pos + 16, ordinal := term + 1 }))

/-- SNP_EXPORT (R419): `nextIn` is 1 once its checks are passed. -/
def exportRun (s : State) (x : Stream) : State :=
  if x.nextIn = 1 then exportLoop x.id (x.d.count / 16 + 1) s
  else if reg s (K.SNP_STATE x.d.part) ≠ 1 then endStream s x.id 0x44 0xFD
  else
    match exportRange s x with
    | some d => endStream s x.id 0x45 d
    | none => exportLoop x.id (x.d.count / 16 + 1) (updStream s x.id (fun y => { y with nextIn := 1 }))

/-- SNP_LEDGER (R421). -/
def ledgerRun (s : State) (x : Stream) : State :=
  let q := x.d.part
  if reg s (K.SNP_STATE q) ≠ 1 then endStream s x.id 0x44 0xFD
  else
    match ledgerPeek s q (reg s (K.LEDGER_SLOT q)) with
    | none => if hasWythe s q then startCopy s q else endStream s x.id 0x24 0
    | some b =>
      let done := fun (s : State) =>
        let s := match snapOf s q with | some y => putSnap s { y with hasLedger := true } | none => s
        endStream (addDone s x.id 1) x.id 0 0
      if reg s K.SNP_MODE = 2 then done (countRecord (deliverEp s x 0 (mkTile (bytesAt b 0 512 ++ zeros 3584) 0 4096 0)) q 0)
      else
        let h := recordHeader s q 1 0 0 0 0 nullName b
        let s := deliverEp s x 0 (mkTile (h ++ b ++ zeros 3520) 0 576 0)
        done (countRecord (bump s K.SNP_OUT_BYTES 576) q (recordTerm (selfRank s q) 1 nullName (leAt h 60 4) (crc32c b)))

/-- SNP_END (R423). -/
def endRun (s : State) (x : Stream) : State :=
  let q := x.d.part
  if reg s (K.SNP_STATE q) ≠ 1 then endStream s x.id 0x44 0xFD
  else
    match snapOf s q with
    | none => endStream s x.id 0x44 0xFD
    | some y =>
      if y.bricks ≠ dataBricks s q then endStream s x.id 0x4D 9
      else if !y.hasLedger then endStream s x.id 0x4D 11
      else closeSession (endStream s x.id 0 0) q

/-- A restore stream ends other than by COMPLETED: the session has failed (R430). -/
def restoreFails (s : State) (x : Stream) (status detail : Nat) : State :=
  let q := x.d.part
  endStream (if reg s (K.SNP_STATE q) = 2 then setReg s (K.SNP_STATE q) 3 else s) x.id status detail

/-- The first item of a manifest header that does not agree (R426). -/
def manifestDiffers (s : State) (q : Nat) (b : List Byte) : Option Nat :=
  let w0 := leAt b 0 8
  let on := hasWythe s q
  if leAt b 124 4 ≠ crc32c (bytesAt b 0 124) ∨ w0 % 65536 ≠ 1 then some 1
  else if bits w0 26 22 ≠ (if on then wyK s q % 32 else 1) then some 2
  else if bits w0 28 27 ≠ (if on then wyM s q else 0) then some 3
  else if bits w0 21 16 ≠ (if on then wyN s q else 1) then some 4
  else if leAt b 16 1 ≠ reg s (K.BOND_SHIFT q) then some 5
  else if leAt b 24 6 ≠ codedFirst s q then some 6
  else if leAt b 32 8 ≠ codedCourses s q then some 7
  else none

/-- SNP_RESTORE_BEGIN (R426). -/
def restoreBegin (s : State) (x : Stream) : State :=
  let q := x.d.part
  match cutRefuses s q true with
  | some d => restoreFails s x 0x44 d
  | none =>
    match readName s x x.d.src with
    | (s, .wait) => s
    | (s, .fail a b) => restoreFails s x a (failDetail s x.id a b)
    | (s, .ok t) =>
      if tileBad t 0 || tileBad t 1 then restoreFails s x 0x24 0
      else
        match manifestDiffers s q (bytesAt t.data 0 128) with
        | some d => restoreFails s x 0x4D d
        | none => endStream (openSession (dropSamples s (fun v => decide (v.part = q))) q 2 (leAt t.data 8 6) (leAt t.data 4 4)) x.id 0 0

/-- A record as it stands in the tiles of a restore. -/
structure RecIn where
  header : List Byte
  payload : List Byte
  whole : Bool
  bad : Bool
  deriving DecidableEq, Repr

/-- The record that begins the bytes. -/
def recordIn (bs : List (Byte × Bool)) : RecIn :=
  let h := (bs.take 64).map Prod.fst
  let n := bits (leAt h 32 8) 48 32
  let b := bs.take (64 + n)
  { header := h, payload := (b.drop 64).map Prod.fst, whole := decide (64 ≤ bs.length ∧ 64 + n ≤ bs.length), bad := b.any Prod.snd }

/-- The bytes of the tiles of a restore, each with its line's mark (R427). -/
def tilesIn (ts : List Tile) : List (Byte × Bool) :=
  ts.flatMap (fun t => (List.zip t.data ((List.range 4096).map (fun i => tileBad t (i / 64)))).take t.info.valid)

/-- KIND, FORMAT, TILE_FORMAT and LENGTH agree (R420, R421). -/
def recordFormed (kind format tileFormat length : Nat) : Bool :=
  if kind = 1 then decide (format = 0 ∧ tileFormat = 0 ∧ length = 512)
  else decide (kind = 0 ∧ tileFormat ≤ 6) &&
    (decide (format = 0 ∧ length = 65536) || decide (format = 1 ∧ tileFormat = 1 ∧ length = 65536) || decide (format = 2 ∧ tileFormat = 1 ∧ length = 32768))

/-- The reason for which a record is refused, if any (R427). -/
def recordRefused (s : State) (q : Nat) (r : RecIn) : Option Nat :=
  let w0 := leAt r.header 0 8
  let w1 := leAt r.header 8 8
  let kind := bits w0 19 16
  let c := leAt r.header 16 8 % 2 ^ 44
  let name := leAt r.header 24 8 % 2 ^ 48
  let last := reg s (K.SNP_LAST_NAME q)
  let l := ledgerOf r.payload
  if r.header.length < 64 then some 9
  else if leAt r.header 60 4 ≠ crc32c (bytesAt r.header 0 60) then some 1
  else if w0 % 65536 ≠ 1 ∨ recordFormed kind (bits w0 23 20) (bits w0 27 24) (bits (leAt r.header 32 8) 48 32) = false then some 2
  else if w1 % 2 ^ 48 ≠ reg s (K.SNP_STEP q) then some 3
  else if w0 / 2 ^ 32 ≠ reg s (K.SNP_SNAP_ID q) then some 4
  else if bits w1 52 48 ≠ selfRank s q then some 5
  else if kind = 0 ∧ (codedCourses s q ≤ c ∨ name ≠ codedFirst s q + 16 * c ∨ isMortar s q c) then some 6
  else if kind = 0 ∧ last ≠ nullName ∧ name ≤ last then some 7
  else if r.whole ∧ leAt r.header 40 4 ≠ crc32c r.payload then some 8
  else if !r.whole || r.bad then some 9
  else if kind = 1 ∧ (!l.crcOk ∨ l.step ≠ reg s (K.SNP_STEP q) ∨ l.ranks ≠ (if hasWythe s q then wyN s q else 1)) then some 10
  else none

/-- The tiles of a state record (R428). -/
def recordTiles (r : RecIn) : List Tile :=
  let w0 := leAt r.header 0 8
  let f := bits w0 27 24
  let data := if bits w0 23 20 = 2 then packElems 4 ((elemsFrom 2 16384 r.payload).map (fun e => (widen fmtBF16 e).toNat)) else r.payload
  (List.range 16).map (fun i => mkTile (bytesAt data (4096 * i) 4096) f (elemCount f) 0)

/-- Take the records of a restore from byte `pos` on; `mark` counts those accepted (R427, R428). -/
def restoreLoop (sid : Nat) : Nat → State → State
  | 0, s => s
  | fuel + 1, s =>
    match findStream s sid with
    | none => s
    | some x =>
      let q := x.d.part
      let rest := (tilesIn x.inbox).drop x.pos
      if rest = [] then endStream s sid 0 0
      else
        let r := recordIn rest
        match recordRefused s q r with
        | some d => restoreFails (bump s K.SNP_REFUSED_RECORDS 1) x 0x47 (d + min x.mark 0xFFFFFF * 256)
        | none =>
          let name := leAt r.header 24 8 % 2 ^ 48
          let kind := bits (leAt r.header 0 8) 19 16
          let term := recordTerm (selfRank s q) kind name (leAt r.header 60 4) (leAt r.header 40 4)
          let n := 64 + r.payload.length
          let next := fun (s : State) => updStream (bump s K.SNP_IN_BYTES n) sid (fun y => { y with pos := y.pos + n, mark := y.mark + 1 })
          if kind = 1 then
            let s := countRecord s q term
            let s := match snapOf s q with | some y => putSnap s { y with hasLedger := true, ledger := r.payload } | none => s
            restoreLoop sid fuel (next s)
          else
            match writeNames s x ((rangeFrom name 16).zip (recordTiles r)) with
            | (s, .wait) => s
            | (s, .fail a b) => restoreFails s x a (failDetail s sid a b)
            | (s, .ok) =>
              let c := (name - codedFirst s q) / 16
              let s := if unbuilt s q c then countRebuilt s q c else s
              restoreLoop sid fuel (next (countState s q name term))

/-- SNP_RESTORE (R427): it acts on its records once its tiles have come. -/
def restoreRun (s : State) (x : Stream) : State :=
  if reg s (K.SNP_STATE x.d.part) ≠ 2 then endStream s x.id 0x44 0xFD
  else if x.inbox.length < x.d.count then s
  else
    let s := if x.tilesDone = 0 then addDone s x.id x.d.count else s
    restoreLoop x.id (4096 * x.d.count + 1) s

/-- Set STALE in the mortar bricks that this block holds (R293, R429). -/
def staleMortar (s : State) (q : Nat) : State :=
  ((List.range (codedCourses s q + gradCourses s q)).filter (fun c => (rowOf s q c (ownRank s q)).isSome)).foldl (fun s c => remark s q c none) s

/-- The ledger of a restore is installed and the session closes (R429). -/
def installSnapshot (s : State) (q : Nat) (b : List Byte) : State :=
  let l := ledgerOf b
  let s := switchLedger s q { l with id := if hasWythe s q then reg s (K.WYTHE_ID q) else 0, map := reg s (K.MAP_EPOCH q) }
  let s := setRegs s [(K.JOB_SEED q, l.seed), (K.EPOCH q, reg s (K.SNP_STEP q)), (K.STEP_PHASE q, 1)]
  closeSession (if hasWythe s q then staleMortar s q else s) q

/-- SNP_RESTORE_END (R429). -/
def restoreEnd (s : State) (x : Stream) : State :=
  let q := x.d.part
  if reg s (K.SNP_STATE q) ≠ 2 then endStream s x.id 0x44 0xFD
  else
    match readName s x x.d.src with
    | (s, .wait) => s
    | (s, .fail a b) => restoreFails s x a (failDetail s x.id a b)
    | (s, .ok t) =>
      let b := bytesAt t.data 0 128
      match snapOf s q with
      | none => restoreFails s x 0x44 0xFD
      | some y =>
        if tileBad t 0 || tileBad t 1 then restoreFails s x 0x24 0
        else if leAt b 124 4 ≠ crc32c (bytesAt b 0 124) ∨ leAt b 0 1 % 32 ≠ selfRank s q then restoreFails s x 0x4D 12
        else if leAt b 8 8 ≠ reg s (K.SNP_RECORDS q) ∨ y.bricks ≠ dataBricks s q then restoreFails s x 0x4D 9
        else if leAt b 16 8 ≠ reg s (K.SNP_DIGEST q) then restoreFails s x 0x4D 10
        else if !y.hasLedger then restoreFails s x 0x4D 11
        else endStream (installSnapshot s q y.ledger) x.id 0 0

/-- What a membership command does to a session (R423, R430). -/
def snapMembership (s : State) (q : Nat) (detail : Nat) : State :=
  let s := cancelStreams s q 0x26 detail (fun x => decide (0x80 ≤ x.d.opcode ∧ x.d.opcode ≤ 0x86))
  if reg s (K.SNP_STATE q) = 1 then closeSession s q
  else if reg s (K.SNP_STATE q) = 2 then setReg s (K.SNP_STATE q) 3
  else s

/-- SNP_BEGIN (R418). -/
def execSnpBegin (sid : Nat) (s : State) : Host.Outcome State Fault Refusal := whenWorking s (onStream s sid 0x80 beginRun)

/-- SNP_EXPORT (R419-R422). -/
def execSnpExport (sid : Nat) (s : State) : Host.Outcome State Fault Refusal := whenWorking s (onStream s sid 0x81 exportRun)

/-- SNP_LEDGER (R421). -/
def execSnpLedger (sid : Nat) (s : State) : Host.Outcome State Fault Refusal := whenWorking s (onStream s sid 0x82 ledgerRun)

/-- SNP_END (R423). -/
def execSnpEnd (sid : Nat) (s : State) : Host.Outcome State Fault Refusal := whenWorking s (onStream s sid 0x83 endRun)

/-- SNP_RESTORE_BEGIN (R426). -/
def execSnpRestoreBegin (sid : Nat) (s : State) : Host.Outcome State Fault Refusal := whenWorking s (onStream s sid 0x84 restoreBegin)

/-- SNP_RESTORE (R427, R428). -/
def execSnpRestore (sid : Nat) (s : State) : Host.Outcome State Fault Refusal := whenWorking s (onStream s sid 0x85 restoreRun)

/-- SNP_RESTORE_END (R429). -/
def execSnpRestoreEnd (sid : Nat) (s : State) : Host.Outcome State Fault Refusal := whenWorking s (onStream s sid 0x86 restoreEnd)

end Sys2Proof.Machine
end

