-- ==== Sys2Proof/Machine/Member.lean ====
section
/-! DEFINITION. Membership (R285-R296, R301, R310): the command's checks and its execution, fence notices, the spare's rebuild, and the
repointing descriptors (R309, R314). -/
namespace Sys2Proof.Machine

/-- SDO abort codes of R443. -/
def sdoRange : Nat := 0x06090030
def sdoState : Nat := 0x08000022
def sdoControl : Nat := 0x08000020
def sdoAccess : Nat := 0x06010000

/-- A membership command record's fields (R289). -/
structure Cmd where
  epoch : Nat
  layout : Nat
  step : Nat
  outcome : Nat
  arith : Nat
  newRank : Nat
  k : Nat
  m : Nat
  id : Nat
  table : Nat
  states : List Nat
  rgSize : Nat
  rgRank : Nat
  rgTable : Nat
  ranges : List Nat
  formed : Bool
  deriving DecidableEq, Repr

/-- The command that a record of 256 bytes spells; `formed` is check 1 of R292. -/
def cmdOf (b : List Byte) : Cmd :=
  let w := fun i => leAt b (8 * i) 8
  let states := (List.range 32).map (fun r => leAt b (32 + r) 1)
  let n := bits (w 2) 14 10 + bits (w 2) 16 15
  { epoch := w 0 % 2 ^ 48, layout := w 0 / 2 ^ 48, step := w 1 % 2 ^ 48, outcome := w 2 % 8, arith := bits (w 2) 4 3, newRank := bits (w 2) 9 5,
    k := bits (w 2) 14 10, m := bits (w 2) 16 15, id := w 2 / 2 ^ 32, table := w 3 % 2 ^ 48, states := states, rgSize := w 8 % 65536,
    rgRank := bits (w 8) 31 16, rgTable := w 9 % 2 ^ 48, ranges := (List.range 6).map (fun i => w (10 + i) % 2 ^ 48),
    formed := decide (b.length = 256 ∧ w 0 / 2 ^ 48 = 1 ∧ w 31 / 2 ^ 32 = crc32c (bytesAt b 0 252) ∧ w 1 < 2 ^ 48 ∧ w 2 % 8 ≤ 3 ∧ bits (w 2) 4 3 ≠ 3 ∧
        bits (w 2) 31 17 = 0 ∧ w 3 < 2 ^ 48 ∧ w 8 < 2 ^ 32 ∧ w 31 % 2 ^ 32 = 0) &&
      (rangeFrom 9 7).all (fun i => decide (w i < 2 ^ 48)) && (rangeFrom 16 15).all (fun i => decide (w i = 0)) &&
      (List.range 32).all (fun r => decide (leAt b (32 + r) 1 ≤ 3) && (decide (r < n) || decide (leAt b (32 + r) 1 = 0))) }

def Cmd.n (c : Cmd) : Nat := c.k + c.m
def Cmd.state (c : Cmd) (r : Nat) : Nat := (c.states[r]?).getD 0
def Cmd.own (c : Cmd) : Nat := c.state c.newRank
def Cmd.range (c : Cmd) (i : Nat) : Nat := (c.ranges[i]?).getD 0

/-- The block is a spare that no job is attached to. -/
def cmdFresh (s : State) (q : Nat) (c : Cmd) : Bool := decide (c.own = 2 ∧ reg s (K.JOB_STATE q) = 0)

/-- The recorded point for a step (R291): the one kept, or where the partition stands. -/
def pointFor (s : State) (q step : Nat) : Recorded :=
  (s.members.recorded.find? (fun r => decide (r.part = q ∧ r.step = step))).getD
    (let e := reg s (K.EPOCH q)
     { part := q, step := step, epoch := e, phase := reg s (K.STEP_PHASE q), atSeal := s.mixer.arrived.contains (q, 1, e), atCommit := s.mixer.arrived.contains (q, 2, e) })

/-- Keep the recorded point of a step (R291). DEDUCED: log entry 62. -/
def keepPoint (s : State) (q step : Nat) : State :=
  let p := pointFor s q step
  { s with members := { s.members with recorded := s.members.recorded.filter (fun r => decide (r.part ≠ q)) ++ [{ p with step := step }] } }

/-- The outcome agrees with the recorded point (R291). -/
def outcomeAgrees (p : Recorded) (step outcome : Nat) : Bool :=
  let at_ := decide (p.epoch = step)
  let past := decide (p.epoch = (step + 1) % 2 ^ 48)
  if outcome = 0 then !(past || (at_ && decide (p.phase = 4 ∨ p.phase = 5)))
  else if outcome = 1 then !(past || (at_ && (decide (p.phase = 1 ∨ p.phase = 2) || (decide (p.phase = 3) && !p.atSeal))))
  else if outcome = 2 then !(at_ && !(decide (p.phase = 5) && p.atCommit))
  else true

/-- Entry r of a member table. -/
def tableEntry (s : State) (q table r : Nat) : Nat :=
  match structBytes s q table (8 * r) 8 with
  | some b => leAt b 0 8
  | none => 0

/-- Check 3 of R232, where ranks that `absent` names have VALID clear (R292 check 8). -/
def tableValid (s : State) (q table n : Nat) (absent : Nat → Bool) : Bool :=
  (slotOf s q table).isSome && (List.range 32).all (fun r => decide ((tableEntry s q table r).testBit 8 = (decide (r < n) && !absent r)))

/-- Check 4 of R232: the entry of `own` names this block, and no node has two entries. -/
def tableNodes (s : State) (q table n own : Nat) (absent : Nat → Bool) : Bool :=
  let nodes := ((List.range n).filter (fun r => !absent r)).map (fun r => bits (tableEntry s q table r) 47 16)
  decide (bits (tableEntry s q table own) 47 16 = reg s K.FP_NODE_ID) && decide ((distinct nodes).length = nodes.length)

/-- Names within the partition's home-map range, satisfying R38. -/
def inHomeMap (s : State) (q first n : Nat) : Bool :=
  rangeOk first n && within first n (reg s (K.HM_FIRST q)) (reg s (K.HM_NAMES q))

/-- Checks 5 and 6 of R232 on a coded range and its headers. -/
def codedFormed (s : State) (q first courses : Nat) : Bool :=
  decide (first % 16 = 0 ∧ 1 ≤ courses ∧ reg s (K.HM_STATE q) = 1) && inHomeMap s q first (16 * courses)
def headersFormed (s : State) (q first courses headers : Nat) : Bool :=
  inHomeMap s q headers (ceilDiv courses 64) && !overlaps first (16 * courses) headers (ceilDiv courses 64)

/-- The conditions of R260. -/
def gradFormed (s : State) (q first courses headers gfirst gcourses gheaders ledger : Nat) : Bool :=
  let rs := [(first, 16 * courses), (headers, ceilDiv courses 64), (gfirst, 16 * gcourses), (gheaders, ceilDiv gcourses 64), (ledger, 2)]
  decide (gfirst % 16 = 0 ∧ 1 ≤ gcourses) && inHomeMap s q gfirst (16 * gcourses) && inHomeMap s q gheaders (ceilDiv gcourses 64) && yardHomed s q ledger 2 &&
    (List.range 5).all (fun i => (List.range i).all (fun j =>
      match rs[i]?, rs[j]? with
      | some a, some b => !overlaps a.1 a.2 b.1 b.2
      | _, _ => true))

/-- Check 2 of R232 on a shape. -/
def shapeFormed (k m rank shift : Nat) : Bool := decide (2 ≤ k ∧ k ≤ 30 ∧ 1 ≤ m ∧ m ≤ 3 ∧ k + m ≤ 32 ∧ rank < k + m ∧ shift ≤ 20)

/-- Every name of a range has a home. -/
def allHomed (s : State) (q first n : Nat) : Bool := (rangeFrom first n).all (fun x => decide (homeOf s q x ≠ .none))

/-- What a fresh spare's map needs besides R292's checks: function modes that R26 allows, and a shape of more ranks than its own (R31). The check
that answers for them is the model's. DESIGN CHOICE: log entry 97. -/
def freshFormed (s : State) (q : Nat) (c : Cmd) : Bool :=
  decide (reg s K.TRW_MODE ≠ 0 ∧ reg s K.MIX_MODE ≠ 0 ∧ reg s K.RPT_MODE ≠ 0) && shapeFormed c.k c.m c.newRank (reg s (K.BOND_SHIFT q))

/-- Check 11 of R292. -/
def spareFormed (s : State) (q : Nat) (c : Cmd) : Bool :=
  (!cmdFresh s q c || freshFormed s q c) && decide (reg s (K.HM_STATE q) = 1) && allHomed s q (c.range 0) (16 * c.range 1) && allHomed s q (c.range 2) (ceilDiv (c.range 1) 64) &&
    allHomed s q (c.range 3) (16 * c.range 4) && allHomed s q (c.range 5) (ceilDiv (c.range 4) 64) && ledgerHomed s q &&
    decide (reg s (K.BG_STATE q) = 1 ∧ positionNode s q (reg s (K.BG_POSITION q)) = some (reg s K.FP_NODE_ID))

/-- Check 6 of R292. -/
def ranksFollow (s : State) (q : Nat) (c : Cmd) : Bool :=
  decide (c.own = 0 ∨ c.own = 2) && (cmdFresh s q c || decide (c.outcome = 3) || (List.range c.n).all (fun r =>
    let old := rankState s q r
    !(decide (old = 1 ∨ old = 2) && decide (c.state r = 0)) && !(decide (c.state r = 1 ∨ c.state r = 2) && decide (old = 3))))

/-- A spare that is still copying its ledger stands at the step of the command it is carrying out, which a later one supersedes (R310). -/
def spareStep (s : State) (q : Nat) : Option Nat :=
  if smapHas s.members.copyFrom q && decide (reg s (K.MEMBER_STATUS q) = 1) then some (cmdOf (str s (K.MEMBER_CMD q))).step else none

/-- Check 4 of R292. -/
def mapFollows (s : State) (q : Nat) (c : Cmd) : Bool :=
  cmdFresh s q c ||
    ((decide (c.outcome = 3) || decide (c.k = wyK s q ∧ c.m = wyM s q ∧ c.id = reg s (K.WYTHE_ID q) ∧ c.ranges =
        [codedFirst s q, codedCourses s q % 2 ^ 48, reg s (K.HEADER_FIRST q) % 2 ^ 48, gradFirst s q, gradCourses s q % 2 ^ 48, reg s (K.GHEADER_FIRST q) % 2 ^ 48])) &&
      (decide (c.step = reg s (K.EPOCH q) ∨ spareStep s q = some c.step) || decide (c.outcome = 2 ∧ (c.step + 1) % 2 ^ 48 = reg s (K.EPOCH q))))

/-- Ranks of a command in a state. -/
def Cmd.inState (c : Cmd) (v : Nat) : List Nat := (List.range c.n).filter (fun r => decide (c.state r = v))

/-- The check that refuses a command, and its abort code (R292). DEDUCED: log entry 54. -/
def cmdRefused (s : State) (q : Nat) (c : Cmd) : Option (Nat × Nat) :=
  let absent := fun r => decide (c.state r = 1)
  if !c.formed then some (1, sdoRange)
  else if !(decide (reg s (K.JOB_STATE q) = 2 ∧ reg s (K.WYTHE_STATE q) = 1) || cmdFresh s q c) then some (2, sdoState)
  else if c.epoch ≤ reg s (K.MAP_EPOCH q) then some (3, sdoState)
  else if !mapFollows s q c then some (4, sdoRange)
  else if c.own ≠ 2 ∧ outcomeAgrees (pointFor s q c.step) c.step c.outcome = false then some (5, sdoState)
  else if !ranksFollow s q c then some (6, sdoRange)
  else if c.outcome = 1 ∧ c.inState 1 ≠ [] then some (7, sdoState)
  else if !tableValid s q c.table c.n absent then some (8, sdoRange)
  else if !tableNodes s q c.table c.n c.newRank absent then some (8, sdoControl)
  else if c.m < (c.inState 1).length + (c.inState 2).length then some (9, sdoState)
  else if c.outcome = 3 ∧ (c.states.any (fun v => decide (v ≠ 0)) ∨ reg s (K.STEP_PHASE q) ≠ 1 ∨ s.mixer.bound.contains q ∨
      shapeFormed c.k c.m c.newRank (reg s (K.BOND_SHIFT q)) = false ∨ codedFormed s q (c.range 0) (c.range 1) = false ∨
      headersFormed s q (c.range 0) (c.range 1) (c.range 2) = false ∨
      gradFormed s q (c.range 0) (c.range 1) (c.range 2) (c.range 3) (c.range 4) (c.range 5) (reg s (K.LEDGER_FIRST q) % 2 ^ 48) = false) then some (10, sdoRange)
  else if c.own = 2 ∧ spareFormed s q c = false then some (11, sdoState)
  else none

/-- The layer of a trough stream. -/
def troughLayer (s : State) (x : Stream) : Option Layer :=
  if x.d.opcode = 0x44 then layerOf s x.d.part x.d.src else layerOf s x.d.part x.d.dst

/-- A stream that the trough serves for a layer that is not final (R173). -/
def troughStream (s : State) (x : Stream) : Bool :=
  (decide (0x40 ≤ x.d.opcode ∧ x.d.opcode ≤ 0x45) || accumulates x.d) && (match troughLayer s x with | some l => decide (l.state ≠ 3) | none => true)

/-- Step 2 of R293, and what else a membership command or a fence notice ends: digests, visit bits and tags (R129, R151, R185). DEDUCED: log entry 38. -/
def cancelForMap (s : State) (q detail : Nat) : State :=
  let ups := s.tracker.streams.filter (fun x => decide (x.d.part = q ∧ x.d.opcode = 0x61) && x.taken && x.finish.isNone)
  let s := ups.foldl (fun s x => trwShrink (trwRelease (updateEnded s x.id 3) x) x) s
  let trough := (s.tracker.streams.filter (troughStream s)).map Stream.id
  let s := cancelStreams s q 0x26 detail (fun x =>
    decide (0x70 ≤ x.d.opcode ∧ x.d.opcode ≤ 0x75 ∨ x.d.opcode = 0x61 ∨ 0x50 ≤ x.d.opcode ∧ x.d.opcode ≤ 0x53) || trough.contains x.id)
  let s := { s with layers := s.layers.filter (fun l => decide (¬ (l.part = q ∧ l.state ≠ 3))) }
  let s := giveSlots { s with rdx := { s.rdx with runs := s.rdx.runs.filter (fun r => decide (r.part ≠ q)), tags := s.rdx.tags.filter (fun t => decide (t.1 ≠ q)),
                                                  waiting := s.rdx.waiting.filter (fun p => decide (p.partition ≠ q)) } } q
  let s := snapMembership s q detail
  let s := (closeDigests s true (fun d => decide (d.part = q))).1
  { s with visits := s.visits.filter (fun v => decide (reg s (K.XP_PARTITION v.1) ≠ q)),
           mixer := { s.mixer with encodes := s.mixer.encodes.filter (fun e => decide (e.part ≠ q)) },
           repairs := s.repairs.filter (fun r => decide (r.part ≠ q)), contribs := s.contribs.filter (fun d => decide (d.part ≠ q)) }

/-- Remember the node that each rank has, before and after a new map. -/
def noteNodes (s : State) (q : Nat) : State :=
  (List.range (wyN s q)).foldl (fun s r =>
    match memberNode s q r with
    | some n => { s with members := { s.members with nodes := smapPut s.members.nodes (q * 32 + r) n } }
    | none => s) s

/-- Step 3 of R293: the new map. -/
def installMap (s : State) (q : Nat) (c : Cmd) : State :=
  let fresh := decide (reg s (K.JOB_STATE q) = 0)
  let s := noteNodes s q
  let s := setRegs s [(K.WYTHE_K q, c.k), (K.WYTHE_M q, c.m), (K.WYTHE_ID q, c.id), (K.WYTHE_RANK q, c.newRank), (K.MEMBER_TABLE q, c.table),
    (K.CODED_FIRST q, c.range 0), (K.CODED_COURSES q, c.range 1), (K.HEADER_FIRST q, c.range 2), (K.GRAD_FIRST q, c.range 3),
    (K.GRAD_COURSES q, c.range 4), (K.GHEADER_FIRST q, c.range 5), (K.MAP_EPOCH q, c.epoch), (K.SILENT_MASK q, 0)]
  let s := if c.rgSize = 0 then s else setRegs s [(K.RG_SIZE q, c.rgSize), (K.RG_RANK q, c.rgRank), (K.RG_TABLE q, c.rgTable)]
  let s := setStr s (K.RANK_STATES q) (c.states.map (BitVec.ofNat 8))
  let s := if fresh then lifeBump (setRegs s [(K.WYTHE_STATE q, 1), (K.JOB_STATE q, 2)]) (ltKey 15) 1 else s
  let s := if c.own = 2 then lifeBump s (ltKey 11) 1 else s
  let s := { s with members := { s.members with fenced := s.members.fenced.filter (fun x => decide (x ≠ q)),
                                                silentNoted := s.members.silentNoted.filter (fun x => decide (x.1 ≠ q)),
                                                ready := s.members.ready.filter (fun x => decide (x.1 ≠ q)),
                                                readyOwed := s.members.readyOwed.filter (fun x => decide (x.1 ≠ q)) } }
  let s := (heartbeatSet s q).foldl (fun s n => putPeer s { peerOf s n with silent := false, restarted := false, misses := 0 }) s
  fixLevel (noteNodes s q) q

/-- Rewrite the map epoch of the complete gradient headers of a step (R293 step 4). -/
def carryHeaders (s : State) (q e : Nat) : State :=
  ((rangeFrom (codedCourses s q) (gradCourses s q)).filter (fun c => (rowOf s q c (ownRank s q)).isSome)).foldl (fun s c =>
    remark s q c (some e)) s

/-- What a partition's attempt at its step leaves behind when the step begins again (R265, R271, R295). -/
def clearAttempt (s : State) (q e : Nat) : State :=
  let mine := fun (a : Nat) => decide (a = q)
  let m := s.mixer
  let s := { s with
    rdx := { s.rdx with folds := s.rdx.folds.filter (fun f => !mine f.part), clips := s.rdx.clips.filter (fun f => !mine f.part) },
    mixer := { m with kept := m.kept.filter (fun k => decide (¬ (k.part = q ∧ k.kind = 1))), list := m.list.filter (fun r => !mine r.part),
                      resend := m.resend.filter (fun r => !mine r.1), begun := m.begun.filter (fun r => !mine r.1),
                      updates := m.updates.filter (fun u => !mine u.1), bound := m.bound.filter (fun a => !mine a),
                      doneSeal := m.doneSeal.filter (fun a => !mine a), ledgers := m.ledgers.filter (fun l => !mine l.part),
                      refusal := m.refusal.filter (fun r => !mine r.1) } }
  dropBarriers (setReg s (K.EPOCH_LIST_USED q) 0) q e

/-- ARITH of a command as a value of ARITH_MODE (R294). -/
def arithValue (c : Cmd) : Option Nat := if c.arith = 1 then some 1 else if c.arith = 2 then some 0 else none

/-- Set the arithmetic mode (R293 step 5): a step in progress is finished in the mode in which it began where `e` names it (R110, R294). -/
def arithNow (s : State) (q : Nat) (c : Cmd) : State := match arithValue c with | some v => setReg s (K.ARITH_MODE q) v | none => s
def arithAfter (s : State) (q e : Nat) (c : Cmd) : State :=
  let old := b2n (refMode s q e)
  arithNow { s with members := { s.members with arith := smapPut s.members.arith q (2 * e + old) } } q c

/-- Step 5 of R293: where the partition stands after the outcome (R294, R295). -/
def takeOutcome (s : State) (q : Nat) (c : Cmd) : State :=
  let e := c.step
  if c.outcome = 1 then
    let m := s.mixer
    let s := dropBarriers { s with mixer := { m with refusal := m.refusal.filter (fun r => decide (r.1 ≠ q)) } } q e
    let s := { s with mixer := { s.mixer with released := (q, 1, e) :: s.mixer.released, doneSeal := q :: s.mixer.doneSeal.filter (fun a => decide (a ≠ q)) } }
    arithAfter (setRegs s [(K.EPOCH q, e), (K.STEP_PHASE q, 4)]) q e c
  else if c.outcome = 2 ∧ reg s (K.EPOCH q) = e then advanceEpoch (arithNow s q c) q
  else
    let e := if c.outcome = 2 then (e + 1) % 2 ^ 48 else e
    arithNow (setRegs (clearAttempt s q e) [(K.EPOCH q, e), (K.STEP_PHASE q, 1)]) q c

/-- Step 6 of R293. -/
def installed (s : State) (q : Nat) (c : Cmd) : State :=
  raise (bump (setReg s (K.MEMBER_STATUS q) 2) K.MEMBER_COMMANDS 1) 0x09 stMSN 0 (some q) false (c.epoch % 2 ^ 32)

/-- Bricks of a spare still to be rebuilt, rows included (R315). -/
def bricksLeft (s : State) (q : Nat) : Nat :=
  let own := ownRank s q
  ((List.range (codedCourses s q + gradCourses s q)).filter (fun c => isData s q c own && unbuilt s q c)).length + (rowsIn s q 0 (codedCourses s q)).length

/-- A spare begins to rebuild, before its ledger is copied (R301). -/
def startRebuild (s : State) (q : Nat) (c : Cmd) (again : Bool) : State :=
  let kept := if again then s.members.rebuilt else s.members.rebuilt.filter (fun x => decide (x.1 ≠ q))
  let all := kept.filter (fun x => decide (x ≠ (q, 2 ^ 48)))
  let s := { s with members := { s.members with rebuilt := if c.outcome = 1 then all else (q, 2 ^ 48) :: all, passEnd := smapErase s.members.passEnd q } }
  setRegs s [(K.RB_STATE q, if c.outcome = 1 then 1 else 2), (K.RB_BRICKS_LEFT q, bricksLeft s q)]

/-- A spare's ledger is copied: it stands where the command says (R295, R296). -/
def spareStands (s : State) (q : Nat) (c : Cmd) : State :=
  let e := reg s (K.EPOCH q)
  if c.outcome = 1 then takeOutcome s q c
  else arithNow (setRegs (clearAttempt s q e) [(K.STEP_PHASE q, 1)]) q c

/-- The step that a spare's ledger copy must show (R295). -/
def ledgerStep (c : Cmd) : Nat := if c.outcome = 2 then (c.step + 1) % 2 ^ 48 else c.step

/-- Execute an accepted command (R293): a spare waits, halted, for its ledger. -/
def runCommand (s : State) (q : Nat) (c : Cmd) (record : List Byte) : State :=
  let again := decide (rankState s q (ownRank s q) = 2 ∧ ownRank s q = c.newRank ∧ reg s (K.JOB_STATE q) = 2)
  let s := setStr (setRegs s [(K.MEMBER_STATUS q, 1), (K.MEMBER_REFUSED q, 0)]) (K.MEMBER_CMD q) record
  let s := if c.own = 2 then s else keepPoint s q c.step
  let s := cancelForMap (setReg s (K.STEP_PHASE q) 6) q (c.epoch % 2 ^ 32)
  let s := installMap s q c
  let s := freeAbsent s q
  let s := if c.outcome = 1 then carryHeaders s q c.step else if c.outcome = 3 then staleMortar s q else s
  if c.own = 2 then
    let s := startRebuild s q c again
    startCopy { s with members := { s.members with copyFrom := smapErase s.members.copyFrom q, copies := smapEraseRun s.members.copies (2 * q) (2 * q + 2) } } q
  else installed (setReg (takeOutcome s q c) (K.RB_STATE q) 0) q c

/-- A write of MEMBER_CMD: the state, and the abort code, 0 where it is accepted (R288, R292). -/
def memberWrite (s : State) (q : Nat) (record : List Byte) : State × Nat :=
  let c := cmdOf record
  match cmdRefused s q c with
  | some (check, code) =>
    let s := setRegs s [(K.MEMBER_STATUS q, 3), (K.MEMBER_REFUSED q, check)]
    (if check = 9 then raise (lifeBump s (ltKey 16) 1) 0x0A stRPT 0 (some q) false 0 else s, code)
  | none => if !working s then (s, sdoState) else (runCommand s q c record, 0)

/-- A fence notice halts a partition (R287). -/
def fence (s : State) (q epoch : Nat) : State :=
  if s.members.fenced.contains q then s
  else
    let s := keepPoint s q (reg s (K.EPOCH q))
    let s := { s with members := { s.members with fenced := q :: s.members.fenced } }
    let s := cancelForMap (setReg s (K.STEP_PHASE q) 6) q (epoch % 2 ^ 32)
    raise s 0x08 stFP 0 (some q) false (epoch % 2 ^ 32)

/-- The partitions that a fence notice applies to. -/
def fenceHits (s : State) (p : Packet) (q : Nat) : Bool :=
  decide (reg s (K.MAP_EPOCH q) < p.mapEpoch) &&
    (if p.w4.toNat.testBit 32 then decide (reg s (K.RG_STATE q) = 1 ∧ reg s (K.RG_GROUP_ID q) = p.w4.toNat % 2 ^ 32)
     else hasWythe s q && decide (reg s (K.WYTHE_ID q) = p.w4.toNat % 2 ^ 32))

def takeFence (s : State) (p : Packet) : State :=
  ((List.range 16).filter (fenceHits s p)).foldl (fun s q => fence s q p.mapEpoch) (bump s K.MEMBER_FENCED_PKTS 1)

/-- The lowest course of a list that can be decoded and is not being decoded: its decode begins (R301). -/
def rebuildFirst (q : Nat) : List Nat → State → State
  | [], s => s
  | c :: rest, s =>
    if (openRepair s q c (ownRank s q)).isSome then rebuildFirst q rest s
    else
      match startRepair s q c (ownRank s q) fullMask false with
      | (s, .breached) => rebuildFirst q rest s
      | (s, .done r) => repairMade s r 0 r.sum
      | (s, .waiting) => s

/-- One step of the spare's rebuild (R301). DEDUCED: log entry 55. -/
def rebuildStep (s : State) (q : Nat) : State :=
  let own := ownRank s q
  let st := reg s (K.RB_STATE q)
  if !hasWythe s q || decide (rankState s q own ≠ 2) || smapHas s.members.copyFrom q then s
  else if st = 1 then
    let l := unbuiltIn s q (codedCourses s q) (gradCourses s q)
    if l ≠ [] then rebuildFirst q l s
    else if s.members.rebuilt.contains (q, 2 ^ 48) then setReg s (K.RB_STATE q) 2 else s
  else if st = 2 then
    let l := unbuiltIn s q 0 (codedCourses s q)
    if l ≠ [] then rebuildFirst q l s else startRows (notePass s q) q
  else s

/-- RPT_FETCH delivers a LOST rank's tiles, decoded (R309). -/
def fetchLoop (sid : Nat) : Nat → State → State
  | 0, s => s
  | fuel + 1, s =>
    match findStream s sid with
    | none => s
    | some x =>
      let q := x.d.part
      let rank := x.d.arg % 32
      if x.pos = x.d.count then endStream s sid 0 0
      else
        let name := x.d.src + x.pos
        let c := (name - codedFirst s q) / 16
        match startRepair s q c rank fullMask false with
        | (s, .waiting) => s
        | (s, .breached) => endStream s sid 0x78 c
        | (s, .done r) =>
          let t := mkTile (bytesAt r.sum (4096 * ((name - codedFirst s q) % 16)) 4096) x.d.format (elemCount x.d.format) 0
          match deliver s x x.pos t with
          | (s, .wait) => s
          | (s, .fail a b) => failStream (dropRepair s q c rank false) sid a b
          | (s, .ok) =>
            let s := updStream s sid (fun y => { y with pos := y.pos + 1 })
            let last := decide ((name - codedFirst s q) % 16 = 15 ∨ x.pos + 1 = x.d.count)
            fetchLoop sid fuel (if last then dropRepair s q c rank false else s)

/-- RPT_FETCH (R309, R314): `mark` is 1 once its checks are passed. -/
def fetchRun (s : State) (x : Stream) : State :=
  let q := x.d.part
  let go := fun (s : State) => fetchLoop x.id (x.d.count + 1) s
  if x.mark = 1 then go s
  else
    match phaseRefuses s q [1, 2, 3] false with
    | some (a, b) => endStream s x.id a b
    | none =>
      if rankState s q (x.d.arg % 32) ≠ 1 ∨ wyN s q ≤ x.d.arg % 32 then endStream s x.id 0x7A (x.d.arg % 32)
      else if within x.d.src x.d.count (codedFirst s q) (16 * codedCourses s q) = false then endStream s x.id 0x7B 0
      else go (updStream s x.id (fun y => { y with mark := 1 }))

/-- RPT_GRAD_REPAIR repairs its poisoned lines course by course: `mark` counts them, `asked` names the courses counted (R309). -/
def gradRepairLoop (sid : Nat) : Nat → State → State
  | 0, s => s
  | fuel + 1, s =>
    match findStream s sid with
    | none => s
    | some x =>
      let q := x.d.part
      if x.pos = x.d.count then endStream s sid 0 x.mark
      else
        let c := codedCourses s q + (x.d.src + x.pos - gradFirst s q) / 16
        let next := fun (s : State) => updStream s sid (fun y => { y with pos := y.pos + 16 })
        if !isData s q c (ownRank s q) then gradRepairLoop sid fuel (next s)
        else
          match readNames s x (rangeFrom (x.d.src + x.pos) 16) with
          | (s, .wait) => s
          | (s, .fail a b) => failStream s sid a b
          | (s, .ok ts) =>
            let bad := ts.foldl (fun a (t : Tile) => a ||| t.info.poison.toNat) 0
            if bad = 0 then gradRepairLoop sid fuel (next s)
            else
              let n := (ts.map (fun t => popCount 64 t.info.poison.toNat)).sum
              let s := if x.asked.contains c then s else updStream s sid (fun y => { y with mark := y.mark + n, asked := c :: y.asked })
              match startRepair s q c (ownRank s q) bad false with
              | (s, .breached) => endStream s sid 0x78 c
              | (s, .waiting) => if (openRepair s q c (ownRank s q)).isSome then s else gradRepairLoop sid fuel s
              | (s, .done _) => dropRepair s q c (ownRank s q) false

/-- RPT_GRAD_REPAIR (R309, R314). -/
def gradRepairRun (s : State) (x : Stream) : State :=
  let q := x.d.part
  let go := fun (s : State) => gradRepairLoop x.id (2 * (x.d.count / 16) + 1) s
  if x.nextIn = 1 then go s
  else
    match phaseRefuses s q [4, 5] false with
    | some (a, b) => endStream s x.id a b
    | none =>
      if x.d.src % 16 ≠ 0 ∨ x.d.count % 16 ≠ 0 ∨ within x.d.src x.d.count (gradFirst s q) (gradNames s q) = false then endStream s x.id 0x7B 0
      else go (updStream s x.id (fun y => { y with nextIn := 1 }))

/-- WY_FENCE arriving (R287). -/
def execWyFence (p : Packet) (s : State) : Host.Outcome State Fault Refusal := whenWorking s (rxPlain s p 0x16 takeFence)

/-- REBUILD_BRICK: the spare's background rebuild takes its next brick (R301). -/
def execRebuildBrick (q : Nat) (s : State) : Host.Outcome State Fault Refusal := whenWorking s (rebuildStep s q)

/-- RPT_FETCH (R309). -/
def execRptFetch (sid : Nat) (s : State) : Host.Outcome State Fault Refusal := whenWorking s (onStream s sid 0x73 fetchRun)

/-- RPT_GRAD_REPAIR (R309). -/
def execRptGradRepair (sid : Nat) (s : State) : Host.Outcome State Fault Refusal := whenWorking s (onStream s sid 0x74 gradRepairRun)

end Sys2Proof.Machine
end

