-- ==== Sys2Proof/Machine/Verify.lean ====
section
/-! DEFINITION. Sampled re-verification of mortar (R405). -/
namespace Sys2Proof.Machine

/-- The sample under way in a partition. -/
def sampleOf (s : State) (q : Nat) : Option Verify := s.safety.verify.find? (fun v => decide (v.part = q))

/-- Put a partition's sample. -/
def putSample (s : State) (v : Verify) : State :=
  { s with safety := { s.safety with verify := s.safety.verify.filter (fun x => decide (x.part ≠ v.part)) ++ [v] } }

/-- Verification runs: a wythe map in FWD or BWD, at a rate above zero (R405). -/
def verifies (s : State) (q : Nat) : Bool :=
  hasWythe s q && decide (reg s (K.STEP_PHASE q) = 1 ∨ reg s (K.STEP_PHASE q) = 2) && decide (reg s K.SAF_VERIFY_RATE ≠ 0)

/-- The sample still belongs to the step and the map it began in, and the phase has not left BWD (R405). -/
def sampleStands (s : State) (v : Verify) : Bool :=
  verifies s v.part && decide (v.epoch = reg s (K.EPOCH v.part)) && decide (v.mapEpoch = reg s (K.MAP_EPOCH v.part))

/-- The next course from c on, within a lap, in which this block holds mortar. -/
def nextHeld (s : State) (q : Nat) : Nat → Nat → Option Nat
  | 0, _ => none
  | fuel + 1, c =>
    let c := c % max 1 (codedCourses s q)
    if (rowOf s q c (ownRank s q)).isSome then some c else nextHeld s q fuel (c + 1)

/-- Ask the members for the tiles still to be asked for, through their windows and past the repair bucket (R300, R405). -/
def askSample (q : Nat) : Nat → State → State
  | 0, s => s
  | fuel + 1, s =>
    match sampleOf s q with
    | none => s
    | some v =>
      match v.toAsk with
      | [] => s
      | k :: t =>
        match memberEntry s q (k / 16) with
        | none => dropSample s q v.course
        | some e =>
          match sendLoad s q (e % 256) (brickName s q v.course + k % 16 - reg s (K.APERTURE_FIRST q) % 2 ^ 48) (.verify q v.course k) (arrivalWho s q) with
          | (s, .sent) => askSample q fuel (chargeRepair (putSample s { v with toAsk := t }) 4096)
          | (s, .noTag) => s
          | (s, .refused) => dropSample s q v.course

/-- The data brick of rank r as the sample has it. -/
def sampleBrick (v : Verify) (r : Nat) : List Byte :=
  (List.range 16).flatMap (fun t => match smapGet v.fetched (16 * r + t) with | some x => x.data | none => zeros 4096)

/-- Row j recomputed from the sample's data bricks (R240). -/
def sampleRow (s : State) (v : Verify) (j : Nat) : List Byte :=
  (dataRanks s v.part v.course).foldl (fun a r => bytesXor a (gfScale (genCoef j (dataIndex s v.part v.course r)) (sampleBrick v r))) (zeros 65536)

/-- Compare the recomputed row with this block's own brick; no verdict where that cannot be read or is not usable (R405). -/
def judgeSample (s : State) (v : Verify) : State :=
  let q := v.part
  let w := arrivalWho s q
  let s := dropSample s q v.course
  match rowOf s q v.course (ownRank s q), readHeader s q v.course w with
  | some j, (s, some h) =>
    if !headerUsable s q v.course h then s
    else
      match readBrickTiles s q w (rangeFrom (brickName s q v.course) 16) with
      | (s, none) => s
      | (s, some ts) =>
        if ts.any (fun t => decide (t.info.poison ≠ 0)) then s
        else
          let s := bump s K.MORTAR_VERIFIED 1
          if (ts.map Tile.data).flatten = sampleRow s v j then s
          else raise (bump s K.MORTAR_MISMATCHES 1) 0x13 stSAF 0 (some q) false (v.course % 2 ^ 32)
  | _, (s, _) => s

/-- A tile of a sample has come, or has failed to (R405). -/
def sampleCame (s : State) (q c k : Nat) (t : Option Tile) : State :=
  match sampleOf s q with
  | none => s
  | some v =>
    if v.course ≠ c then s
    else if !sampleStands s v then dropSample s q c
    else
      match t with
      | none => dropSample s q c
      | some t =>
        if t.info.poison ≠ 0 then dropSample s q c
        else
          let v := { v with fetched := smapPut v.fetched k t }
          let s := putSample s v
          if v.toAsk ≠ [] then askSample q 512 s
          else if v.fetched.length = 16 * (dataRanks s q c).length then judgeSample s v
          else s

/-- MORTAR_VERIFY: begin the sample of the next course, or go on with the one under way (R405). A course with an absent member, or whose
header here is not usable, gives none. DEDUCED: log entry 71. -/
def mortarVerify (s : State) (q : Nat) : State :=
  if !verifies s q then dropSamples s (fun v => decide (v.part = q))
  else
    let s := dropSamples s (fun v => decide (v.part = q) && !sampleStands s v)
    match sampleOf s q with
    | some _ => askSample q 512 s
    | none =>
      match nextHeld s q (codedCourses s q) ((smapGet s.safety.verifyNext q).getD 0) with
      | none => s
      | some c =>
        let s := { s with safety := { s.safety with verifyNext := smapPut s.safety.verifyNext q (c + 1) } }
        let members := dataRanks s q c
        match readHeader s q c (arrivalWho s q) with
        | (s, none) => s
        | (s, some h) =>
          if !headerUsable s q c h || members.any (fun r => decide (rankState s q r ≠ 0)) then s
          else
            askSample q 512 (putSample s { part := q, course := c, epoch := reg s (K.EPOCH q), mapEpoch := reg s (K.MAP_EPOCH q),
                                           toAsk := members.flatMap (fun r => rangeFrom (16 * r) 16), fetched := [] })

end Sys2Proof.Machine
end

