-- ==== Sys2Proof/Machine/Job.lean ====
section
/-! DEFINITION. Job start, rejoining and the end of a job (R492-R498); the ledger copy's end (R296); responses and time-outs of this
block's requests (R324, R331-R334); barrier packets and releases (R339-R341). -/
namespace Sys2Proof.Machine

/-- The job record that a partition last accepted (R492). -/
def jobRecord (s : State) (q : Nat) : List Byte := strN s (K.JOB_START q) 64
def jobStep (s : State) (q : Nat) : Nat := leAt (jobRecord s q) 0 6
def jobEpoch (s : State) (q : Nat) : Nat := leAt (jobRecord s q) 8 6
def jobRejoins (b : List Byte) : Bool := (leAt b 8 8).testBit 48

/-- Layout, CRC and reserved fields (R493 check 1). -/
def jobFormed (b : List Byte) : Bool :=
  decide (b.length = 64 ∧ leAt b 6 2 = 1 ∧ leAt b 60 4 = crc32c (bytesAt b 0 60) ∧ leAt b 8 8 / 2 ^ 49 = 0) && allZero (bytesAt b 32 28)

/-- How far a job start is; 0 where none is under way. -/
def jobStage (s : State) (q : Nat) : Nat := (smapGet s.members.starting q).getD 0
def setStage (s : State) (q v : Nat) : State := { s with members := { s.members with starting := smapPut s.members.starting q v } }
def endStage (s : State) (q : Nat) : State :=
  { s with members := { s.members with starting := smapErase s.members.starting q, readyHeld := s.members.readyHeld.filter (fun x => decide (x ≠ q)) } }

/-- A job start fails (R494, R496). -/
def jobFails (s : State) (q cause : Nat) : State := setRegs (endStage s q) [(K.JOB_STATE q, 3), (K.JOB_FAILED q, cause)]

/-- Every rank is LIVE (R494, R496). -/
def allLive (s : State) (q : Nat) : State := setStr s (K.RANK_STATES q) (zeros 32)

/-- Step 4 of R494: the first ledger, and a held JOB_CONTROL 1. -/
def jobLedger (s : State) (q : Nat) : State :=
  let b := jobRecord s q
  let s := allLive (setReg s (K.MAP_EPOCH q) (jobEpoch s q)) q
  if !ledgerHomed s q then jobFails s q 2
  else
    let l : Ledger := { step := jobStep s q, layout := 1, seed := reg s (K.JOB_SEED q), id := if hasWythe s q then reg s (K.WYTHE_ID q) else 0,
                        ranks := if hasWythe s q then wyN s q else 1, opt := leAt b 16 8, sched := leAt b 24 8, map := jobEpoch s q,
                        pos := List.replicate 32 0, crcOk := true }
    let s := setStage (setReg (putLedger s q 0 l) (K.LEDGER_SLOT q) 0) q 3
    if s.members.readyHeld.contains q then barrierArriveOwn s q 0 (jobStep s q) else s

/-- Step 1 of R496: a rejoining block copies the ledger. DEDUCED: log entry 90. -/
def jobCopy (s : State) (q : Nat) : State :=
  if !ledgerHomed s q then jobFails s q 2
  else startCopy (setStage s q 2) q

/-- The fabric is set up and the level fixed: the ledger follows. -/
def jobConnected (s : State) (q : Nat) : State := if jobRejoins (jobRecord s q) then jobCopy s q else jobLedger s q

/-- Step 3 of R494 goes as far as the answers allow: HELLO, then the level, then the tree links' delays (R335, R340, R344). -/
def jobAdvance (s : State) (q : Nat) : State :=
  let s :=
    if jobStage s q = 1 ∧ helloDone s q then
      let s := fixLevel s q
      if reg s (K.FP_LEVEL q) = 0 then jobFails s q 1 else (distinct (treeNodes s q)).foldl (fun s n => sendEchoes s q n) (setStage s q 4)
    else s
  if jobStage s q = 4 ∧ echoDone s q then jobConnected (setRegs s [(K.FP_FINGERPRINT q, fingerprint s q)]) q else s

def jobAdvanceAll (s : State) : State := (List.range 16).foldl jobAdvance s

/-- No lifetime record was restored by the time it was needed: a new epoch begins (R469). -/
def lifeNew (s : State) : State :=
  setReg { s with life := { s.life with epochId := reg s K.FP_BOOT_NONCE, pushSeq := 0, gap := true } } K.LIFE_STATE 2

/-- A write of JOB_START (R493, R494, R496): the state, and the abort code, 0 where it is accepted. -/
def jobWrite (s : State) (q : Nat) (b : List Byte) : State × Nat :=
  if !jobFormed b then (s, sdoRange)
  else if reg s K.START_STAGE ≠ 5 ∨ reg s K.SAFE_STATE ≠ 1 ∨ reg s (K.JOB_STATE q) ≠ 0 then (s, sdoState)
  else if reg s (K.BG_STATE q) ≠ 1 ∨ (jobRejoins b ∧ (reg s (K.WYTHE_STATE q) ≠ 1 ∨ reg s (K.HM_STATE q) ≠ 1)) then (s, sdoState)
  else
    let s := if reg s K.LIFE_STATE = 0 then lifeNew s else s
    let s := lifeBump (setStr (setRegs s [(K.JOB_STATE q, 1), (K.JOB_FAILED q, 0)]) (K.JOB_START q) b) (ltKey 15) 1
    let s := { s with members := { s.members with recorded := s.members.recorded.filter (fun r => decide (r.part ≠ q)),
                                                  fenced := s.members.fenced.filter (fun x => decide (x ≠ q)),
                                                  breached := s.members.breached.filter (fun x => decide (x.1 ≠ q)),
                                                  splits := s.members.splits.filter (fun x => decide (x.1 ≠ q)) } }
    let l := fixLevel s q
    if warm s q && decide (reg l (K.FP_LEVEL q) = 4) then (jobConnected (setReg l (K.FP_WARM q) 1) q, 0)
    else (jobAdvance (startDiscovery (setStage (setReg s (K.FP_WARM q) 0) q 1) q) q, 0)

/-- A write of JOB_CONTROL 1 (R494, R496, R497). -/
def jobReady (s : State) (q : Nat) : State × Nat :=
  if reg s (K.JOB_STATE q) = 4 then (endStage (setReg s (K.JOB_STATE q) 2) q, 0)
  else if reg s (K.JOB_STATE q) = 1 then
    if jobStage s q = 3 then (barrierArriveOwn s q 0 (jobStep s q), 0)
    else ({ s with members := { s.members with readyHeld := q :: s.members.readyHeld.filter (fun x => decide (x ≠ q)) } }, 0)
  else (s, sdoState)

/-- A write of JOB_CONTROL 3 (R498). -/
def jobEnd (s : State) (q : Nat) : State × Nat :=
  if reg s (K.JOB_STATE q) = 0 ∨ (List.range 4).any (fun i => decide (reg s (K.Q_STATE (4 * q + i)) ≠ 0)) then (s, sdoState)
  else
    let s := clearAttempt s q (2 ^ 48)
    let s := closeSession { s with hod := s.hod.filter (fun h => decide (h.part ≠ q)), layers := s.layers.filter (fun l => decide (l.part ≠ q)),
                                   digests := s.digests.filter (fun d => decide (d.part ≠ q)) } q
    let s := { s with mixer := { s.mixer with kept := s.mixer.kept.filter (fun k => decide (k.part ≠ q)), held := s.mixer.held.filter (fun d => decide (d.part ≠ q)),
                                              encodes := s.mixer.encodes.filter (fun e => decide (e.part ≠ q)) },
                      repairs := s.repairs.filter (fun r => decide (r.part ≠ q)), contribs := s.contribs.filter (fun d => decide (d.part ≠ q)),
                      rdx := { s.rdx with tags := s.rdx.tags.filter (fun t => decide (t.1 ≠ q)), runs := s.rdx.runs.filter (fun r => decide (r.part ≠ q) || !r.left) },
                      visits := s.visits.filter (fun v => decide (reg s (K.XP_PARTITION v.1) ≠ q)) }
    let s := { s with members := { s.members with arith := smapErase s.members.arith q, readyOwed := s.members.readyOwed.filter (fun r => decide (r.1 ≠ q)) } }
    let s := if (bcastRuns s q).isSome then bcastFail s q else s
    (setRegs (endStage s q) [(K.STEP_PHASE q, 0), (K.JOB_STATE q, 0)], 0)

/-- The job-start barrier has released (R494 step 7). -/
def jobReleased (s : State) (q e : Nat) : State :=
  if reg s (K.JOB_STATE q) ≠ 1 ∨ e ≠ jobStep s q then s
  else
    let b := s.barriers
    let s := { s with barriers := { b with arrivals := b.arrivals.filter (fun a => decide (¬ (a.part = q ∧ a.kind = 0))),
                                           sentUp := b.sentUp.filter (fun a => decide (¬ (a.1 = q ∧ a.2.1 = 0))) } }
    endStage (setRegs s [(K.EPOCH q, e), (K.STEP_PHASE q, 1), (K.JOB_STATE q, 2)]) q

/-- A ledger that was copied may be taken: for a spare, for a rejoining block, or in place of a poisoned one (R296, R388, R496). -/
def takeCopy (s : State) (q : Nat) (l : Ledger) (tile : List Byte) : State :=
  let s := { s with members := { s.members with copyFrom := smapErase s.members.copyFrom q, copies := smapEraseRun s.members.copies (2 * q) (2 * q + 2) } }
  let s := match slotOf s q (ledgerName s q (reg s (K.LEDGER_SLOT q))) with
    | some k => writeSlot s k (mkTile tile 0 4096 0) (arrivalWho s q)
    | none => s
  if reg s (K.MEMBER_STATUS q) = 1 then
    let c := cmdOf (str s (K.MEMBER_CMD q))
    installed (spareStands (setRegs s [(K.JOB_SEED q, l.seed), (K.EPOCH q, l.step)]) q c) q c
  else if jobStage s q = 2 then
    if l.step ≠ jobStep s q ∨ l.id ≠ reg s (K.WYTHE_ID q) then jobFails s q 3
    else setStage (setRegs (allLive s q) [(K.JOB_SEED q, l.seed), (K.EPOCH q, l.step), (K.MAP_EPOCH q, jobEpoch s q), (K.STEP_PHASE q, 1), (K.JOB_STATE q, 4)]) q 3
  else mixWake s q

/-- Both ledger tiles of a rank have come: the current one is the one of the later step (R276, R296). -/
def judgeCopy (s : State) (q : Nat) : State :=
  match smapGet s.members.copies (2 * q), smapGet s.members.copies (2 * q + 1) with
  | some a, some b =>
    let la := ledgerOf a
    let lb := ledgerOf b
    let useB := lb.crcOk && (!la.crcOk || decide (la.step < lb.step))
    let l := if useB then lb else la
    let rejoin := decide (jobStage s q = 2)
    let wanted := if reg s (K.MEMBER_STATUS q) = 1 then ledgerStep (cmdOf (str s (K.MEMBER_CMD q))) else reg s (K.EPOCH q)
    if l.crcOk && (rejoin || decide (l.id = reg s (K.WYTHE_ID q) ∧ l.step = wanted)) then takeCopy s q l (if useB then b else a) else copyNext s q
  | _, _ => s

/-- A ledger tile has come, or could not be had. -/
def ledgerCame (s : State) (q slot : Nat) (t : Option Tile) : State :=
  if !smapHas s.members.copyFrom q then s
  else
    match t with
    | some t => judgeCopy { s with members := { s.members with copies := smapPut s.members.copies (2 * q + slot) t.data } } q
    | none => copyNext s q

/-- End a stream as its station ends it when a tier fails (R90). -/
def endByTier (s : State) (sid detail : Nat) : State :=
  match findStream s sid with
  | none => s
  | some x =>
    if x.finish.isSome then s
    else if x.closing then updStream s sid (fun y => if y.status = 0 then { y with status := 0x23, detail := detail % 2 ^ 32 } else y)
    else if 0x50 ≤ x.d.opcode ∧ x.d.opcode ≤ 0x53 then rdxEnd s sid 0x23 detail
    else if x.d.opcode = 0x61 then trwEnd s sid 0x23 detail
    else if x.d.opcode = 0x71 then sealFails s x 0x23 detail
    else if x.d.opcode = 0x72 then commitFails s x 0x23 detail
    else if 0x84 ≤ x.d.opcode ∧ x.d.opcode ≤ 0x86 then restoreFails s x 0x23 detail
    else if accumulates x.d then endAcc s x 0x23 detail
    else endStream s sid 0x23 detail

/-- A store of a stream is answered. -/
def storeAnswered (s : State) (sid : Nat) : State :=
  match findStream s sid with
  | none => s
  | some x =>
    let s := putStream s { x with unacked := x.unacked - 1 }
    if x.closing && decide (x.unacked ≤ 1) then
      let s := setFinish s sid
      if x.d.opcode = 0x61 then mixWake (updateEnded s sid (if x.status = 0 then 1 else 2)) x.d.part else rdxSettle s
    else s

/-- The run-time's atomic waits for the answers of its earlier stores to the same node and partition (R328): then it goes. -/
def sendHeldAtomic (s : State) : State :=
  match s.fabric.heldAtomic with
  | none => s
  | some p =>
    if storesOut s p.dst then s
    else
      match issue { s with fabric := { s.fabric with heldAtomic := none } } p (atomicOp p) .atomic (arrivalWho s 0) with
      | (s, .noTag) => { s with fabric := { s.fabric with heldAtomic := some p } }
      | (s, _) => s

/-- A load or a store of a tile that the mixer or the repointer works on is answered: what waits for it goes on, and a store that failed is sent
again (R243, R267). -/
def awayAnswered (s : State) (r : Req) (q name : Nat) (t : Option Tile) : State :=
  let k := q * 2 ^ 48 + name
  if r.type = 0x01 then
    let s := remarkDue { s with homes := { s.homes with away := smapPut s.homes.away k t } } q
    mixWake (retryEncodes (lateProducts (retryAllHeld s q) q) q) q
  else
    match t, smapGet s.homes.away k with
    | none, some (some old) =>
      match homeOf s q name with
      | .peer win o => (sendStore s q win o old (.away q name) (arrivalWho s q)).1
      | _ => { s with homes := { s.homes with awayOut := smapErase s.homes.awayOut k } }
    | _, _ =>
      let n := (smapGet s.homes.awayOut k).getD 1 - 1
      if n = 0 then { s with homes := { s.homes with away := smapErase s.homes.away k, awayOut := smapErase s.homes.awayOut k } }
      else { s with homes := { s.homes with awayOut := smapPut s.homes.awayOut k n } }

/-- The partition and name by which a tile that was asked for of a peer is known (R386). -/
def askedName (s : State) (u : ReqUse) : Option (Nat × Nat) :=
  match u with
  | .read sid name => (findStream s sid).map (fun x => (x.d.part, name))
  | .ledger q slot => some (q, ledgerName s q slot)
  | .relay p => some (p.partition, apertureName s p.partition p.address)
  | .bcast q i _ => (bcastRuns s q).map (fun b => (q, (if b.isRoot then b.src else b.dst) + i))
  | .away q name => some (q, name)
  | .verify q c k => some (q, brickName s q c + k % 16)
  | _ => none

/-- A tile that a peer's aperture answers is checked (R385, R386). -/
def checkAnswer (s : State) (u : ReqUse) (t : Tile) : State × Tile :=
  match askedName s u with
  | some (q, name) => checkTile s (identName name) (some q) t
  | none => (s, t)

/-- What a response, or its absence, brings a request: the tile or word and the status; none is a time-out. -/
def answer (s : State) (r : Req) (p : Option Packet) : State :=
  let ok := match p with | some p => decide (p.status = 0) | none => false
  let cause := match p with | some _ => 6 | none => 4
  let came := match p with
    | some p =>
      let m := metaOf (natLe 8 p.w4.toNat ++ natLe 8 p.w5.toNat)
      { data := bytesAt (lineData p.payload) 0 4096, info := { m with poison := m.poison ||| maskOf (lineBad p.payload) } : Tile }
    | none => zeroTile 0
  let (s, tile) := if ok && decide (r.type = 0x01) then checkAnswer s r.use came else (s, came)
  match r.use with
  | .read sid name =>
    if ok then updStream s sid (fun y => { y with fetched := smapPut y.fetched name tile, asked := y.asked.filter (fun n => decide (n ≠ name)) })
    else
      endByTier (updStream s sid (fun y => { y with asked := y.asked.filter (fun n => decide (n ≠ name)) })) sid (tierDetail cause 0 2)
  | .write sid => storeAnswered (if ok then s else endByTier s sid (tierDetail cause 0 2)) sid
  | .atomic =>
    let a := match p with | some p => natLe 8 p.w4.toNat ++ natLe 8 p.status | none => natLe 8 (2 ^ 64 - 1) ++ natLe 8 0xFF
    { s with fabric := { s.fabric with pendingAtomic := false, atomicAnswer := a } }
  | .ledger q slot => ledgerCame s q slot (if ok then some tile else none)
  | .relay p0 => if ok then relayTile s p0 tile else refuseReq s p0 0x07
  | .relayed p0 old => if ok then relayDone s p0 old else refuseReq s p0 0x07
  | .bcast q i pos => bcastLoaded s q i pos (if ok then some tile else none)
  | .away q name => awayAnswered s r q name (if ok then some tile else none)
  | .verify q c k => sampleCame s q c k (if ok then some tile else none)
  | .plain => s

/-- A stream's request. -/
def streamUse : ReqUse → Option Nat
  | .read sid _ => some sid
  | .write sid => some sid
  | _ => none

/-- The request under a tag is done with. What waits for a tag asks again; a stream's requests wait until they do. -/
def dropReq (s : State) (tag : Nat) : State :=
  { s with fabric := { s.fabric with reqs := s.fabric.reqs.filter (fun r => decide (r.tag ≠ tag)),
                                     tagWaits := s.fabric.tagWaits.filter (fun u => (streamUse u).isSome) } }

/-- A combined response is one of a type and operation that a switch may combine, with the request's line count (R333, R334). -/
def combinedOk (r : Req) (p : Packet) : Bool :=
  (decide (r.type = 0x01) && decide (p.status ≠ 0 ∨ p.lines = r.lines)) || (decide (r.type = 0x04) && [0, 3, 4].contains r.op && decide (p.lines = 0))

/-- RESPONSE arrives (R324, R332, R334). DEDUCED: log entry 91. -/
def takeResponse (s : State) (p : Packet) : State :=
  match s.fabric.reqs.find? (fun r => decide (r.tag = p.tag)) with
  | none => if p.combined then bump s K.FP_COMBINE_BAD 1 else bump s K.FP_RX_DISCARDED 1
  | some r =>
    if p.combined && !combinedOk r p then bump s K.FP_COMBINE_BAD 1
    else if !p.combined && decide (r.node ≠ p.src) then bump s K.FP_RX_DISCARDED 1
    else
      let s := if p.combined then bump s K.FP_COMBINED_RSP 1 else s
      let s := if p.status = 0 then s else bump s K.FP_ERROR_RSP 1
      let s := putPeer s { peerOf s r.node with deadNoted := false }
      sendHeldAtomic (answer (dropReq s p.tag) r (some p))

/-- A request has had no response within FP_TIMEOUT_US (R285, R332). -/
def requestTimeout (s : State) (tag : Nat) : State :=
  match s.fabric.reqs.find? (fun r => decide (r.tag = tag)) with
  | none => s
  | some r =>
    let s := bump (dropReq s tag) K.FP_TIMEOUTS 1
    let s := match r.use with
      | .read _ _ => bump s K.TIER2_TIMEOUT_NS (reg s K.FP_TIMEOUT_US * 1000)
      | .write _ => bump s K.TIER2_TIMEOUT_NS (reg s K.FP_TIMEOUT_US * 1000)
      | .away _ _ => bump s K.TIER2_TIMEOUT_NS (reg s K.FP_TIMEOUT_US * 1000)
      | _ => s
    let x := peerOf s r.node
    let s := if x.deadNoted then s else raise (putPeer s { x with deadNoted := true }) 0x0B stFP 0 none false r.node
    let s := declareSilent s r.node false
    jobAdvanceAll (sendHeldAtomic (answer s r none))

/-- Adopted positions return to a parent that was replaced, and this block to its own (R341). -/
def restoreParents (s : State) (q : Nat) : State :=
  let rs := (s.barriers.replaced.filter (fun r => decide (r.1 = q))).map Prod.snd
  let own := reg s (K.BG_POSITION q)
  let back := rs.any (fun r => decide (own ≠ 0 ∧ r = (own - 1) / 16))
  { s with barriers := { s.barriers with replaced := s.barriers.replaced.filter (fun r => decide (r.1 ≠ q)),
                                         adopted := s.barriers.adopted.filter (fun a => decide (¬ (a.1 = q ∧ a.2 ≠ 0 ∧ rs.contains ((a.2 - 1) / 16)))),
                                         parents := if back then smapErase s.barriers.parents q else s.barriers.parents } }

/-- A barrier releases: to the mixer, or to job start (R339). -/
def barrierReleased (s : State) (q kind epoch : Nat) : State :=
  let s := { s with barriers := { s.barriers with down := s.barriers.down.filter (fun d => decide (¬ (d.1 = q ∧ d.2.1 = kind))) } }
  let s := restoreParents s q
  if kind = 0 then jobReleased s q epoch
  else if kind = 1 then (if reg s (K.EPOCH q) = epoch then sealReleased s q epoch else s)
  else if kind = 2 then commitReleased s q epoch
  else s

/-- Kind of a barrier packet. -/
def barrierKind (p : Packet) : Nat := p.w4.toNat % 4

/-- BARRIER_ARRIVE arrives (R339, R341). -/
def takeArrive (s : State) (p : Packet) : State :=
  let q := p.partition
  let pos := p.w5.toNat % 65536
  let e := p.w6.toNat % 2 ^ 48
  let known := (childrenOf s q).contains pos
  if !known && !p.w4.toNat.testBit 2 then s
  else
    let s := if known then s else { s with barriers := { s.barriers with adopted := s.barriers.adopted ++ [(q, pos)] } }
    barrierTry (putArrival s { part := q, kind := barrierKind p, epoch := e, pos := pos, delay := p.w5.toNat / 2 ^ 32 }) q (barrierKind p) e

/-- BARRIER_RELEASE arrives (R339 steps 3 and 4). -/
def takeRelease (s : State) (p : Packet) : State :=
  let q := p.partition
  let kind := barrierKind p
  let e := p.w6.toNat % 2 ^ 48
  if !s.barriers.sentUp.contains (q, kind, e) || s.barriers.down.any (fun d => decide (d.1 = q ∧ d.2.1 = kind ∧ d.2.2.1 = e)) || s.mixer.released.contains (q, kind, e) then s
  else
    let c := p.w5.toNat % 2 ^ 32
    let d := delayTo s p.src
    let s := sendReleases s q kind e (c - d - Config.forwardCycles)
    if c < d then barrierReleased (bump s K.FP_BARRIER_LATE 1) q kind e else startCountdown s q kind e (c - d)

/-- The countdown of a barrier has reached zero (R339). -/
def countdownDone (s : State) (q kind : Nat) : State :=
  match s.barriers.down.find? (fun d => decide (d.1 = q ∧ d.2.1 = kind)) with
  | some d => barrierReleased s q kind d.2.2.1
  | none => s

/-- A write of BG_REPLACE (R341, R343). The bits that R341 does not name are ignored. DESIGN CHOICE: log entry 95. -/
def replaceWrite (s : State) (q v : Nat) : State × Nat :=
  let pos := v % 65536
  let node := bits v 47 16
  if reg s (K.BG_STATE q) ≠ 1 then (s, sdoState)
  else if reg s (K.BG_SIZE q) ≤ pos then (s, sdoRange)
  else if (positionNode s q pos).isNone then (s, sdoState)
  else
    let s := structWrite (setReg s (K.BG_REPLACE q) v) q (reg s (K.BG_TABLE q) % 2 ^ 48) (4 * pos) (natLe 4 node)
    let s := { s with barriers := { s.barriers with replaced := s.barriers.replaced ++ [(q, pos)] } }
    let idle := !s.barriers.arrivals.any (fun a => decide (a.part = q) && !s.mixer.released.contains (q, a.kind, a.epoch))
    let s := if idle then restoreParents s q else s
    let own := reg s (K.BG_POSITION q)
    let near := (parentOf s q).toList ++ (if own = 0 then [] else [(own - 1) / 16]) ++ childrenOf s q
    let s := if near.contains pos then sendEchoes s q node else s
    let s := match bcastOf s q with
      | some b => putBcast s { b with childLow := smapErase b.childLow pos, childNext := smapErase b.childNext pos, childDone := b.childDone.filter (fun x => decide (x ≠ pos)) }
      | none => s
    (if near.contains pos then bcastPump s q else s, 0)

/-- A write of BG_BCAST (R342, R343). -/
def bcastWriteStart (s : State) (q : Nat) (b : List Byte) : State × Nat :=
  if reg s (K.BG_STATE q) ≠ 1 ∨ reg s (K.BG_POSITION q) ≠ 0 then (s, sdoState)
  else
    let job := leAt b 24 4
    let old := match bcastOf s q with | some x => if x.job = job then some x else none | none => none
    let x : Bcast :=
      { part := q, job := job, isRoot := true, src := leAt b 0 6, count := some (leAt b 8 4), dst := leAt b 16 6,
        low := match old with | some x => x.low | none => 0, seen := match old with | some x => x.seen | none => [], childLow := [], childNext := [],
        childDone := [], doneSent := false, rootLost := false }
    (bcastPump (setReg (putBcast (setStr s (K.BG_BCAST q) b) x) (K.BCAST_STATUS q) 1) q, 0)

/-- HELLO arriving (R344). -/
def execHello (p : Packet) (s : State) : Host.Outcome State Fault Refusal :=
  whenWorking s (rxPlain s p 0x31 (fun s p => jobAdvanceAll (takeHello s p)))

/-- ECHO_REPLY arriving (R340). -/
def execEchoReply (p : Packet) (s : State) : Host.Outcome State Fault Refusal :=
  whenWorking s (rxPlain s p 0x33 (fun s p => jobAdvanceAll (takeEchoReply s p)))

/-- PEER_SILENT: no heartbeat from a node for SILENCE_MISSES consecutive intervals (R285). -/
def execPeerSilent (node : Nat) (s : State) : Host.Outcome State Fault Refusal :=
  whenWorking s (
    let x := peerOf s node
    if (heartbeatUnion s).contains node && decide (reg s K.SILENCE_MISSES ≤ x.misses) && !x.silent then jobAdvanceAll (declareSilent s node false) else s)

/-- BARRIER_ARRIVE arriving (R339). -/
def execBarrierArrive (p : Packet) (s : State) : Host.Outcome State Fault Refusal := whenWorking s (rxTree s p 0x34 takeArrive)

/-- BARRIER_RELEASE arriving (R339). -/
def execBarrierRelease (p : Packet) (s : State) : Host.Outcome State Fault Refusal := whenWorking s (rxTree s p 0x35 takeRelease)

/-- BARRIER_COUNTDOWN_EXPIRY (R339). -/
def execBarrierCountdownExpiry (q kind : Nat) (s : State) : Host.Outcome State Fault Refusal := whenWorking s (countdownDone s q kind)

end Sys2Proof.Machine
end

