-- ==== Sys2Proof/Machine/Life.lean ====
section
/-! DEFINITION. The tiers' identities (R463, R464) and the lifetime recorder (R465-R469). -/
namespace Sys2Proof.Machine

/-- The sixteen bytes of tier t's identity (R463). -/
def tierBytes (t : Nat) : List Byte := natLe 16 (Config.tierIdentity t).toNat

/-- Tier t's identity fails its check or names another position (R464). -/
def tierBad (t : Nat) : Bool :=
  let b := tierBytes t
  decide (leAt b 14 2 ≠ crc32c (bytesAt b 0 14) / 65536) || decide (leAt b 10 1 % 8 ≠ t)

/-- ID_STATUS as the mason reads the identities (R464). -/
def idStatus : Nat := ((List.range 5).filter tierBad).foldl (fun a t => a + 2 ^ t) 0

/-- SERIAL: the CRC-32C of the logic tier's identity (R4). -/
def serial : Nat := crc32c (tierBytes 0)

/-- The lifetime counters of R465, their subindexes from 1. -/
def lifeCounters : List Nat := rangeFrom 1 16

/-- Bins of each histogram (R466): the grid is number 0, the stations' latencies 1 to 8, the banks 9. -/
def histBins (h : Nat) : Nat := if h = 0 then 65 else if h ≤ 8 then 33 else 513

/-- The bytes of a histogram entry. -/
def histBytes (s : State) (h : Nat) : List Byte := (List.range (histBins h)).flatMap (fun b => natLe 4 (binGet s h b))

/-- The lifetime record as it stands (R467). -/
def lifeRecord (s : State) : List Byte :=
  let unlocked := decide (reg s K.PTP_STATE ≠ 3) && decide (reg s K.PTP_STATE ≠ 5)
  let body := natLe 2 1 ++ zeros 2 ++ natLe 4 s.life.epochId ++ natLe 8 s.life.pushSeq ++ natLe 8 (stamp s) ++
    natLe 4 (b2n s.life.gap + 2 * b2n s.life.orderly + 4 * b2n unlocked) ++ zeros 4 ++ (List.range 5).flatMap tierBytes ++ zeros 16 ++
    lifeCounters.flatMap (fun i => natLe 8 (reg s (ltKey i))) ++ (List.range 10).flatMap (histBytes s) ++ zeros 468
  body ++ natLe 4 (crc32c body)

/-- The notification address of a port (R448, R468). -/
def notifyMac (s : State) (p : MgPort) : Nat := match p with | .mga => reg s K.NOTIFY_MAC_A | .mgb => reg s K.NOTIFY_MAC_B

/-- A PHY's link is up (R486). -/
def linkUp (s : State) (p : MgPort) : Bool := match p with | .mga => s.pins.mga | .mgb => s.pins.mgb

/-- The ports that a notification or a push goes out on. -/
def notifyPorts (s : State) : List MgPort := [MgPort.mga, MgPort.mgb].filter (fun p => decide (notifyMac s p ≠ 0) && linkUp s p)

/-- Push the record: four SEG_DATA frames on every port that can carry them (R468). -/
def lifePush (s : State) (orderly : Bool) : State :=
  if reg s K.MSN_LIFE_MODE ≠ 1 then s
  else
    let ports := notifyPorts s
    if ports = [] then bump s K.LIFE_PUSH_DROPPED 1
    else
      let s := { s with life := { s.life with pushSeq := s.life.pushSeq + 1, orderly := orderly } }
      let r := lifeRecord s
      let frames := ports.flatMap (fun p => (List.range 4).map (fun i =>
        ({ port := p, dst := notifyMac s p, vlan := none, type := 0x84, client := 0, seq := s.life.pushSeq % 2 ^ 32, index := 0x8100, sub := 0, size := 0,
           last := decide (i = 3), dup := false, value := 1024 * i, data := bytesAt r (1024 * i) 1024 } : DmpOut)))
      bump { s with mgmt := { s.mgmt with out := s.mgmt.out ++ frames } } K.LIFE_PUSHES 1

/-- A write of LIFE_RECORD (R469): every counter and bin becomes the record's value plus the count since start-up. DEDUCED: log entry 81. -/
def lifeRestore (s : State) (b : List Byte) : State × Nat :=
  if reg s K.LIFE_STATE ≠ 0 ∨ reg s K.MSN_LIFE_MODE = 0 then (s, 0x08000022)
  else if leAt b 0 2 ≠ 1 ∨ leAt b 4092 4 ≠ crc32c (bytesAt b 0 4092) then (s, 0x06090030)
  else if bytesAt b 32 80 ≠ (List.range 5).flatMap tierBytes then (s, 0x08000020)
  else
    let s := lifeCounters.foldl (fun s i => lifeBump s (ltKey i) (leAt b (128 + 8 * (i - 1)) 8)) s
    let base := fun h => if h = 0 then 256 else if h ≤ 8 then 516 + 132 * (h - 1) else 1572
    let hist := (List.range 10).foldl (fun m h => (List.range (histBins h)).foldl (fun m i =>
      let v := min (binGet s h i + leAt b (base h + 4 * i) 4) (2 ^ 32 - 1)
      if v = 0 then m else smapPut m (h * 1024 + i) v) m) s.life.hist
    (setReg { s with life := { s.life with epochId := leAt b 4 4, pushSeq := leAt b 8 8, gap := (leAt b 24 4).testBit 0, hist := hist } } K.LIFE_STATE 1, 0)

/-- A write of LIFE_SHUTDOWN (R468, R469). -/
def lifeShutdown (s : State) (v : Nat) : State × Nat :=
  if v = 1 then (lifePush s true, 0)
  else if v = 2 then (if reg s K.LIFE_STATE = 0 then (lifeNew s, 0) else (s, 0x08000022))
  else (s, 0x06090030)

/-- The operating grid's bin (R466): eighths of a degree. -/
def gridBin (mv : Nat) (t8 : Int) : Nat :=
  let v := if 500 ≤ mv ∧ mv ≤ 899 then some ((mv - 500) / 50) else if mv = 900 then some 7 else none
  let t := if t8 < 120 then some 0 else if t8 < 960 then some (t8.toNat / 120) else none
  match v, t with
  | some v, some t => 8 * v + t
  | _, _ => 64

/-- The latency histogram of a station: TRW, TRG, RDX, SIV, MIX, RPT, PLB and SNP in this order (R466). -/
def latencyHist (station : Nat) : Option Nat := ((List.range 8).find? (fun i => decide ([stTRW, stTRG, stRDX, stSIV, stMIX, stRPT, stPLB, stSNP][i]? = some station))).map (· + 1)

/-- The latency bin of the ratio n ÷ d: the number of powers of 1.01 from 0.90 on that it reaches, less one (R466). DEDUCED: log entry 89. -/
def latencyBin (n d : Nat) : Nat :=
  ((rangeFrom 1 32).filter (fun b => decide (90 * 101 ^ b * d ≤ n * 100 * 100 ^ b))).length

/-- The firmware runs, and the recorder with it. -/
def recording (s : State) : Bool := alive s && decide (reg s K.START_STAGE = 5)

/-- LIFE_PUSH (R468): every 600 s. -/
def execLifePush (s : State) : Host.Outcome State Fault Refusal := whenAlive s (if recording s then lifePush s false else s)

/-- LIFE_GRID_SAMPLE (R466): once a second. -/
def execLifeGridSample (s : State) : Host.Outcome State Fault Refusal :=
  whenAlive s (if recording s then binBump s 0 (gridBin (lowestMv s) (highestTemp s)) else s)

/-- LIFE_LATENCY_SAMPLE (R466): once a minute, the mean known-answer slot time of a station. -/
def execLifeLatencySample (station meanPs : Nat) (s : State) : Host.Outcome State Fault Refusal :=
  whenAlive s (match recording s, latencyHist station with
    | true, some h =>
      let f := speedNow s
      binBump s h (latencyBin (meanPs * f.1) (f.2 * (Config.katReference station + 1)))
    | _, _ => s)

end Sys2Proof.Machine
end

