-- ==== Sys2Proof/Machine/Check.lean ====
section
/-! DEFINITION. The twelve checks that STR makes of a descriptor (R47), with each opcode's routes, formats, counts and ranges. -/
namespace Sys2Proof.Machine

/-- Every opcode that a chapter defines (R43). -/
def opDefined (o : Nat) : Bool :=
  [0x00, 0x01, 0x0F, 0x10, 0x11, 0x12, 0x13, 0x18, 0x19, 0x1A, 0x20, 0x21, 0x22, 0x23, 0x24, 0x25, 0x26, 0x28, 0x30, 0x31, 0x32, 0x33, 0x34,
   0x40, 0x41, 0x42, 0x43, 0x44, 0x45, 0x50, 0x51, 0x52, 0x53, 0x60, 0x61, 0x70, 0x71, 0x72, 0x73, 0x74, 0x75,
   0x80, 0x81, 0x82, 0x83, 0x84, 0x85, 0x86].contains o

/-- Check 3: the first hop that holds a reserved route code (R14). -/
def reservedHop (d : Desc) : Option Nat := (List.range 6).find? (fun i => decide (0x0F ≤ (d.hops[i]?).getD 0))

/-- Check 4: the first non-zero hop after a zero hop. -/
def gapHop (d : Desc) : Option Nat := (List.range 6).find? (fun i => decide ((d.hops[i]?).getD 0 ≠ 0) && (d.hops.take i).contains 0)

/-- The hops that reach tiles by name, and with EP (R45). -/
def namedHops : List Nat := [stHOM, stSST, stMP]
def tileHops : List Nat := stEP :: namedHops

/-- The routes that an opcode permits, STREAM's apart: each a list of the codes that each hop may hold. -/
def opRoutes (s : State) (o : Nat) : List (List (List Nat)) :=
  if o = 0x00 ∨ o = 0x0F then [[]]
  else if 0x10 ≤ o ∧ o ≤ 0x1A then [[[stHOM]]]
  else if o = 0x20 ∨ o = 0x23 then [[[stHOD]]]
  else if o = 0x21 then (if reg s K.PLB_MODE = 0 then [[[stEP], [stHOD]]] else [[[stEP], [stPLB], [stHOD]]])
  else if o = 0x22 ∨ o = 0x26 then [[[stHOD], [stEP]]]
  else if o = 0x24 then [[[stEP], [stHOD]]]
  else if o = 0x25 then [[[stEP]]]
  else if o = 0x28 then [[[stPLB]]]
  else if o = 0x30 ∨ o = 0x31 then [[namedHops, [stSIV], tileHops]]
  else if o = 0x32 then [[tileHops, [stSIV], stTRG :: namedHops]]
  else if o = 0x33 then [[tileHops, [stSIV], tileHops]]
  else if o = 0x34 then [[tileHops, [stSIV], stTRG :: tileHops]]
  else if o = 0x41 ∨ o = 0x42 then [[tileHops, [stTRG]]]
  else if o = 0x44 then [[[stTRG], tileHops]]
  else if o = 0x40 ∨ o = 0x43 ∨ o = 0x45 then [[[stTRG]]]
  else if o = 0x50 then [[[stTRG], [stRDX], namedHops]]
  else if o = 0x51 then [[[stTRG], [stRDX]]]
  else if o = 0x52 then [[namedHops, [stRDX], tileHops]]
  else if o = 0x53 then [[[stRDX], tileHops]]
  else if o = 0x60 then [[[stTRW]]]
  else if o = 0x61 then namedHops.map (fun h => [[h], [stTRW], [h]])
  else if o = 0x73 then [[[stRPT], tileHops]]
  else if o = 0x74 then [[[stRPT]]]
  else if 0x70 ≤ o ∧ o ≤ 0x75 then [[[stMIX]]]
  else if o = 0x81 ∨ o = 0x82 then [[[stSNP], [stEP]]]
  else if o = 0x85 then [[[stEP], [stSNP]]]
  else [[[stSNP]]]

/-- The first hop at which a route leaves a permitted one; none where it is that route. -/
def offRoute : List (List Nat) → List Nat → Option Nat
  | [], [] => none
  | [], _ :: _ => some 0
  | _ :: _, [] => some 0
  | a :: p, h :: r => if a.contains h then (offRoute p r).map (fun n => n + 1) else some 0

/-- The first hop at which a route is no STREAM's (R45). -/
def offStream (r : List Nat) : Option Nat :=
  match r with
  | [] => some 0
  | h :: t =>
    if !tileHops.contains h then some 0
    else
      let n := (t.takeWhile (fun h => decide (h = stPLB))).length
      match t.drop n with
      | [] => some (min 5 (n + 1))
      | [k] => if tileHops.contains k then none else some (n + 1)
      | k :: _ => if tileHops.contains k then some (n + 2) else some (n + 1)

/-- Check 5: the number of the first hop that breaks the permitted shape. -/
def routeBreaks (s : State) (d : Desc) : Option Nat :=
  let r := routeOf d
  if d.opcode = 0x01 then offStream r
  else
    let offs := (opRoutes s d.opcode).map (fun p => offRoute p r)
    if offs.contains none then (if (d.opcode = 0x33 ∨ d.opcode = 0x34) ∧ srcHop d = stEP ∧ sinkHop d = stEP then some 2 else none)
    else some ((offs.map (fun o => o.getD 0)).foldl max 0)

/-- The function mode of a station on a route; a station without one is in hardware mode (R23). -/
def stationMode (s : State) (h : Nat) : Nat :=
  if h = stPLB then reg s K.PLB_MODE else if h = stRDX then reg s K.RDX_MODE else if h = stTRW then reg s K.TRW_MODE
  else if h = stMIX then reg s K.MIX_MODE else if h = stRPT then reg s K.RPT_MODE else if h = stSNP then reg s K.SNP_MODE else 1

/-- Check 6: the route code of the first station that is off (R25, R195). -/
def stationOff (s : State) (d : Desc) : Option Nat :=
  match (routeOf d).find? (fun h => decide (stationMode s h = 0)) with
  | some h => some h
  | none => if (d.opcode = 0x51 ∨ d.opcode = 0x53) ∧ normMode s = 0 then some stRDX else none

/-- A conversion that R46 permits, or none. -/
def convertible (f o : Nat) : Bool := decide (f = o) || (decide (f = 1) && decide (2 ≤ o ∧ o ≤ 5)) || (decide (o = 1) && decide (2 ≤ f ∧ f ≤ 5))

/-- Check 7. An opcode whose chapter names no format accepts any. -/
def formatOk (d : Desc) : Bool :=
  let o := d.opcode
  let f := d.format
  let same := decide (d.outFormat = f)
  if o = 0x01 then decide (f ≤ 6) && convertible f d.outFormat
  else if 0x10 ≤ o ∧ o ≤ 0x1A then decide (f ≤ 6)
  else if o = 0x20 ∨ o = 0x23 then same
  else if o = 0x21 then same && decide (f ≤ 6)
  else if o = 0x22 then same && (if d.transpose then decide (1 ≤ f ∧ f ≤ 5) else decide (f ≤ 6))
  else if o = 0x24 ∨ o = 0x26 then same && decide (f = 1)
  else if o = 0x25 then same && decide (f = 6)
  else if o = 0x30 then same && decide (1 ≤ f ∧ f ≤ 6)
  else if o = 0x31 ∨ o = 0x33 then same && decide (f ≤ 6)
  else if o = 0x32 ∨ o = 0x34 then same && (if sinkHop d = stTRG then decide (f = 1) else decide (f ≤ 6))
  else if o = 0x41 then decide (1 ≤ f ∧ f ≤ 3) && decide (d.outFormat = 1)
  else if o = 0x44 then decide (f = 1) && convertible f d.outFormat
  else if o = 0x40 ∨ o = 0x42 ∨ o = 0x51 ∨ o = 0x53 ∨ o = 0x70 then decide (f = 1)
  else if o = 0x50 ∨ o = 0x61 then decide (f = 1) && same
  else if o = 0x52 ∨ o = 0x73 then same && decide (f ≤ 6)
  else if o = 0x60 ∨ o = 0x71 ∨ o = 0x72 ∨ o = 0x80 ∨ o = 0x82 ∨ o = 0x83 then decide (f = 0)
  else if o = 0x81 then (decide (f = 0) && same) || (decide (f = 1) && decide (d.outFormat = 1 ∨ d.outFormat = 2))
  else true

/-- Check 8: `TILE_COUNT` is within the opcode's limits (R46, R121, R139, R206). -/
def countOk (d : Desc) : Bool :=
  let o := d.opcode
  let n := d.count
  if o = 0x00 ∨ o = 0x0F then decide (n = 0)
  else if [0x20, 0x23, 0x28, 0x43, 0x45, 0x53, 0x60, 0x71, 0x72, 0x80, 0x82, 0x83, 0x84, 0x86].contains o then decide (n = 1)
  else if o = 0x01 ∨ o = 0x44 then decide (0 < n) && (!narrows d || decide (n % convN d = 0))
  else if o = 0x21 then decide (0 < n) && decide (n % max 1 (bits d.scalar 63 48) = 0)
  else if 0x30 ≤ o ∧ o ≤ 0x34 then decide (0 < n) && decide (n ≤ 2 ^ 24)
  else if o = 0x61 then decide (16 ≤ n) && decide (n ≤ 2 ^ 24) && decide (n % (if (List.range (planesOf d)).any (isHalf d) then 32 else 16) = 0)
  else decide (0 < n)

/-- Tiles of a sparse operand of n elements (R136). -/
def operandTiles (f n : Nat) : Nat := ceilDiv n 1024 + (if f = 6 then 0 else ceilDiv n (elemCount f))

/-- Names from the first of plane 0 to the end of the furthest plane (R206, R207). -/
def planeReach (d : Desc) : Nat := ((List.range (planesOf d)).map (fun k => planeFirst d k + planeTiles d k - d.src)).foldl max 0

/-- The ranges that a descriptor names, as (0 source, 1 destination or 2 auxiliary, first name, names); a range that EP takes the
place of is not named. -/
def namedRanges (s : State) (d : Desc) : List (Nat × Nat × Nat) :=
  let o := d.opcode
  let src := fun n => [(0, d.src, n)]
  let from' := fun n => if srcHop d = stEP then [] else [(0, d.src, n)]
  let sink := fun n => if sinkNamed d then [(1, d.dst, n)] else []
  let aux := fun n => [(2, d.aux, n)]
  let list := ceilDiv (d.scalar % 2 ^ 32) 1024
  if o = 0x01 then from' d.count ++ sink (sinkTiles d d.count)
  else if o = 0x13 then src d.count ++ [(1, d.dst, ceilDiv d.count 512)]
  else if 0x10 ≤ o ∧ o ≤ 0x1A then src d.count
  else if o = 0x30 then src (operandTiles d.format (d.scalar % 2 ^ 32)) ++ sink (mergeTiles d) ++ aux (operandTiles d.format (d.scalar / 2 ^ 32))
  else if o = 0x31 then src d.count ++ sink (ceilDiv (d.scalar % 2 ^ 32) (64 / 2 ^ (d.arg % 8))) ++ aux list
  else if o = 0x32 then from' d.count ++ (if sinkNamed d then [(1, d.dst, d.scalar / 2 ^ 32)] else [(1, d.dst, 1)]) ++ aux list
  else if o = 0x33 then
    let p := planOf (planText s (d.arg % 16))
    from' d.count ++ sink p.dest ++ aux (ceilDiv (d.arg / 256 * p.topk) 1024) ++ [(2, d.scalar % 2 ^ 48, ceilDiv (p.dest * (64 / 2 ^ p.code)) 1024)]
  else if o = 0x34 then
    let p := planOf (planText s (d.arg % 16))
    from' d.count ++ (if sinkHop d = stTRG then [(1, d.dst, 1)] else sink (ceilDiv (d.arg / 256 * p.topk) (64 / 2 ^ p.code))) ++
      [(2, d.scalar % 2 ^ 48, ceilDiv (d.count * (64 / 2 ^ p.code)) 1024)]
  else if o = 0x40 then [(1, d.dst, d.count)] ++ aux (maskTiles d)
  else if o = 0x41 then from' d.count ++ [(1, d.dst, if d.format = 1 then d.count else 2 * d.count)]
  else if o = 0x42 then from' d.count ++ [(1, d.dst, 1)] ++ aux list
  else if o = 0x43 ∨ o = 0x45 then [(1, d.dst, 1)]
  else if o = 0x44 then src d.count ++ sink (sinkTiles d d.count)
  else if o = 0x50 then src d.count ++ sink (shardTiles d.count (max 1 (groupN s d.part)) (groupRank s d.part))
  else if o = 0x51 then src d.count
  else if o = 0x52 then src (shardTiles d.count (max 1 (groupN s d.part)) (groupRank s d.part)) ++ sink d.count
  else if o = 0x53 then sink 1
  else if o = 0x60 ∨ o = 0x72 ∨ o = 0x84 ∨ o = 0x86 then src 1
  else if o = 0x61 then src (planeReach d) ++ [(1, d.dst, 1)] ++ aux d.count
  else if o = 0x73 then src d.count ++ sink d.count
  else if o = 0x70 ∨ o = 0x74 ∨ o = 0x75 ∨ o = 0x81 then src d.count
  else []

/-- Check 9: which named range does not satisfy R38. -/
def nameFault (s : State) (d : Desc) : Option Nat :=
  ((namedRanges s d).find? (fun r => decide (0 < r.2.2) && !rangeOk r.2.1 r.2.2)).map Prod.fst

/-- Check 10: the opcode's need for a wythe map or an attached job is met. -/
def attachOk (s : State) (d : Desc) : Bool :=
  if d.opcode = 0x70 ∨ d.opcode = 0x71 ∨ d.opcode = 0x75 then hasWythe s d.part
  else if d.opcode = 0x72 then jobAttached s d.part
  else true

/-- The first name of a range that lies in another range. -/
def firstIn (r : Nat × Nat) (first n : Nat) : Option Nat := if overlaps r.1 r.2 first n then some (max r.1 first) else none

/-- The first course, of those whose bricks a range reaches, that the bond gives this block as mortar (R237, R261). `first` is the
name of course 0, `n` the courses, `base` the first course's number. -/
def mortarIn (s : State) (q : Nat) (r : Nat × Nat) (first n base : Nat) : Option Nat :=
  match firstIn r first (16 * n) with
  | none => none
  | some a =>
    let c0 := (a - first) / 16
    let c1 := (min (r.1 + r.2) (first + 16 * n) - 1 - first) / 16
    (rangeFrom c0 (c1 + 1 - c0)).find? (fun c => isMortar s q (base + c))

/-- What check 11 finds in one range that a descriptor writes: the course reported (R40, R237, R238, R261, R265). -/
def codedFault (s : State) (d : Desc) (r : Nat × Nat) : Option Nat :=
  let q := d.part
  let c := codedCourses s q
  let g := gradCourses s q
  let coded := match firstIn r (codedFirst s q) (16 * c) with | some n => if d.opcode = 0x61 then none else some ((n - codedFirst s q) / 16) | none => none
  let header := (firstIn r (reg s (K.HEADER_FIRST q) % 2 ^ 48) (ceilDiv c 64)).map (fun n => (n - reg s (K.HEADER_FIRST q) % 2 ^ 48) * 64)
  let ghead := (firstIn r (reg s (K.GHEADER_FIRST q) % 2 ^ 48) (ceilDiv g 64)).map (fun n => (n - reg s (K.GHEADER_FIRST q) % 2 ^ 48) * 64)
  let sealed := match firstIn r (gradFirst s q) (16 * g) with | some n => if s.mixer.doneSeal.contains q then some ((n - gradFirst s q) / 16) else none | none => none
  coded <|> mortarIn s q r (codedFirst s q) c 0 <|> header <|> mortarIn s q r (gradFirst s q) g c <|> ghead <|> sealed

/-- Check 11: the status and DETAIL (R40). -/
def writeRefuses (s : State) (d : Desc) : Option (Nat × Nat) :=
  let q := d.part
  if !hasWythe s q then none
  else if 0x10 ≤ d.opcode ∧ d.opcode ≤ 0x12 then
    if (overlaps d.src d.count (codedFirst s q) (16 * codedCourses s q) || overlaps d.src d.count (gradFirst s q) (16 * gradCourses s q)) &&
      decide (d.src % 16 ≠ 0 ∨ d.count % 16 ≠ 0) then some (0x1B, 0) else none
  else ((destRanges s d).findSome? (codedFault s d)).map (fun c => (0x1A, c))

/-- The opcode and options vary (R63, R161, R169). -/
def varies (d : Desc) : Bool := d.variance || (decide (d.opcode = 0x42) && d.arg.testBit 8)

/-- The checks of R47 in order, and then R60's: the status and DETAIL of the first that fails. DEDUCED: log entry 25. -/
def descRefuses (s : State) (q : Nat) (d : Desc) : Option (Nat × Nat) :=
  if d.part ≠ qPart q ∨ d.cls ≠ qClass q then some (0x10, 0)
  else if !opDefined d.opcode then some (0x11, 0)
  else
    match reservedHop d, gapHop d, routeBreaks s d, stationOff s d with
    | some i, _, _, _ => some (0x12, i)
    | none, some i, _, _ => some (0x13, i)
    | none, none, some i, _ => some (0x14, i)
    | none, none, none, some h => some (0x15, h)
    | none, none, none, none =>
      if !formatOk d then some (0x16, 0)
      else if !countOk d then some (0x17, 0)
      else
        match nameFault s d with
        | some w => some (0x18, w)
        | none =>
          if !attachOk s d then some (0x19, 0)
          else
            match writeRefuses s d with
            | some r => some r
            | none =>
              if varies d && decide (reg s (K.DET_POLICY d.part) = 1) then some (0x1C, 0)
              else if d.opcode = 0x0F ∧ qPart (d.arg % 64) ≠ d.part then some (0x10, 0)
              else none

end Sys2Proof.Machine
end

