-- ==== Sys2Proof/Machine/Trg.lean ====
section
/-! DEFINITION. The trough's opcodes (R161-R176). -/
namespace Sys2Proof.Machine

/-- TRG_OPEN (R162). `mark` is 1 while it waits for storage. -/
def execTrgOpen (sid : Nat) (s : State) : Host.Outcome State Fault Refusal :=
  whenWorking s (onStream s sid 0x40 (fun s x =>
    let unit := if x.d.arg.testBit 24 then some (bits x.d.arg 29 25) else none
    let m := x.d.arg % 65536
    let slots := layerSlots (refMode s x.d.part x.epoch) x.d.count m unit
    match openRefuses s x slots with
    | some (a, b) => endStream s sid a b
    | none =>
      if troughFree s < slots then updStream s sid (fun y => { y with mark := 1 })
      else
        match readNames s x (rangeFrom x.d.aux (maskTiles x.d)) with
        | (s, .wait) => s
        | (s, .fail a b) => failStream s sid a b
        | (s, .ok ts) =>
          if ts.any (fun t => decide (t.info.poison ≠ 0)) then failStream s sid 0x24 0
          else
            let l : Layer := { num := bits x.d.arg 21 16, part := x.d.part, queue := x.queue, tensor := x.d.tensor, first := x.d.dst, tiles := x.d.count,
                               m := m, isLocal := x.d.arg.testBit 22, byDesc := x.d.arg.testBit 23, unit := unit, mask := (ts.map Tile.data).flatten,
                               reference := refMode s x.d.part x.epoch, slots := slots, place := troughPlace s slots, state := 1, taken := 0, ended := [], terms := [],
                               finals := [], bad := [] }
            giveOrdinals (endStream (rewriteLayer { s with layers := s.layers ++ [l] } l (fun _ => true)) sid 0 slots)))

/-- TRG_ACC (R161, R163, R164). -/
def execTrgAcc (sid : Nat) (s : State) : Host.Outcome State Fault Refusal :=
  whenWorking s (rdxWake <| onStream s sid 0x41 (fun s x =>
    match accCheck s x (x.d.count * tilesPer x.d.format) with
    | .refuse a b => endAcc s x a b
    | .wait => s
    | .go _ => accLoop sid (x.d.count + 1) s))

/-- Take a row addition's source tile by tile until its last read (R168, R169): read `pos`, counted from 0, takes the hot rows of its batch of 32,
in ascending row number, and read 0 every row that is not hot. -/
def rowAddLoop (sid : Nat) (l : Layer) (idx hot : List Nat) (reads : Nat) : Nat → State → State
  | 0, s => s
  | fuel + 1, s =>
    match findStream s sid with
    | none => s
    | some x =>
      if reads ≤ x.pos then endAcc (addDone s sid x.d.count) x 0 0
      else
        match readSources s x x.d.count with
        | (s, .wait) => s
        | (s, .fail a b) => failAcc s x a b
        | (s, .ok ts) =>
          let k := x.d.arg % 8
          let unordered := x.d.arg.testBit 8
          let mine := (List.range idx.length).filter (fun i => let j := hot.idxOf ((idx[i]?).getD 0)
            decide (x.pos = if j < hot.length ∧ 1 < reads then j / 32 else 0))
          let rows := mine.map (fun i =>
            let r := rowOfTiles ts k i
            { row := (idx[i]?).getD 0, token := i, words := words32 r.1, bad := r.2 : RowIn })
          let (s, rows) := if unordered then (match draw s with | (s, d) => (s, byArrival (Config.arrivalRank d) rows)) else (s, rows)
          let s := addRows s l.num x.ordinal ((x.d.dst - l.first) * 1024) (16 * 2 ^ k) x.d.tensor x.epoch unordered rows
          let taken := min 32 (hot.length - 32 * x.pos)
          let s := if taken = 0 then s else bump s K.TRG_HOT_ROWS taken
          rowAddLoop sid l idx hot reads fuel (updStream (markRows s x rows) sid (fun y => { y with pos := y.pos + 1 }))

/-- TRG_ROW_ADD (R166-R169): `text` holds the hot-row threshold as it stood at acceptance (R177). The index list is read once. -/
def execTrgRowAdd (sid : Nat) (s : State) : Host.Outcome State Fault Refusal :=
  whenWorking s (rdxWake <| onStream s sid 0x42 (fun s x =>
    match accCheck s x 1 with
    | .refuse a b => endAcc s x a b
    | .wait => s
    | .go l =>
      let n := x.d.scalar % 2 ^ 32
      let k := x.d.arg % 8
      let rpt := 64 / 2 ^ k
      if k = 7 ∨ n = 0 ∨ x.d.count ≠ ceilDiv n rpt then endAcc s x 0x17 0
      else
        let names := rangeFrom x.d.aux (ceilDiv n 1024)
        match (match keptTiles s x names with | some ts => (s, ListRead.ok ts) | none => readNames s x names) with
        | (s, .wait) => s
        | (s, .fail a b) => failAcc s x a b
        | (s, .ok li) =>
          let s := keepTiles s x (List.zip names li)
          if listBad li n then failAcc s x 0x24 0
          else
            let idx := listEntries li n
            match (List.range n).find? (fun i => decide (rpt * (l.tiles - (x.d.dst - l.first)) ≤ (idx[i]?).getD 0)) with
            | some i => endAcc s x 0x5D i
            | none =>
              let hot := if x.d.arg.testBit 8 then [] else hotRows (leAt x.text 0 4) idx
              let reads := if srcHop x.d = stEP then 1 else max 1 (ceilDiv hot.length 32)
              rowAddLoop sid l idx hot reads (reads + 1) s))

/-- TRG_DONE (R171). -/
def execTrgDone (sid : Nat) (s : State) : Host.Outcome State Fault Refusal :=
  whenWorking s (rdxWake <| onStream s sid 0x43 (fun s x =>
    match layerOf s x.d.part x.d.dst with
    | none => endStream s sid 0x58 1
    | some l =>
      if l.state ≠ 1 then endStream s sid 0x5C 2
      else if ordinalBefore s l sid then s
      else endStream (finaliseLayer s l.num x.epoch) sid 0 l.taken))

/-- TRG_READ (R161, R172). -/
def execTrgRead (sid : Nat) (s : State) : Host.Outcome State Fault Refusal :=
  whenWorking s (onStream s sid 0x44 (fun s x =>
    match layerOf s x.d.part x.d.src with
    | none => endStream s sid 0x58 1
    | some l =>
      if l.first + l.tiles < x.d.src + x.d.count then endStream s sid 0x58 2
      else if l.state ≠ 3 then endStream s sid 0x5F l.state
      else trgReadLoop sid (x.d.count + 1) s))

/-- TRG_CLOSE (R173). -/
def execTrgClose (sid : Nat) (s : State) : Host.Outcome State Fault Refusal :=
  whenWorking s (onStream s sid 0x45 (fun s x =>
    match layerOf s x.d.part x.d.dst with
    | none => endStream s sid 0x58 1
    | some l =>
      if decide (l.state = 1) && ordinalBefore s l sid then s
      else if decide (l.state ≠ 1) && layerRead s l then s
      else endStream (freeLayer s l.num) sid 0 l.slots))

end Sys2Proof.Machine
end

