-- ==== Sys2Proof/Machine/Queue.lean ====
section
/-! DEFINITION. The descriptor queues: their entries and the queue channel (R48-R52, R482), the fetch and acceptance of descriptors
(R47, R55-R57, R63, R365-R367), completion records, and ABORT (R60-R62). -/
namespace Sys2Proof.Machine

/-- Bytes of a queue's ring line at a position: none where it is poisoned or lies in no yard tile. -/
def ringLine (s : State) (q pos : Nat) : Option (List Byte) :=
  structBytes s (qPart q) (reg s (K.DQ_BASE q) % 2 ^ 48) (pos * 64) 64

/-- Ring position of a queue's head. -/
def headPos (s : State) (q : Nat) : Nat := reg s (K.DQ_CONSUMER q) % max 1 (reg s (K.DQ_SIZE q))

/-- The queue is enabled and its ring is not empty. -/
def hasHead (s : State) (q : Nat) : Bool := decide (reg s (K.Q_STATE q) = 1) && decide (reg s (K.DQ_PRODUCER q) ≠ reg s (K.DQ_CONSUMER q))

/-- The head as STR read it ahead; none where its line is poisoned. -/
def headBytes (s : State) (q : Nat) : Option (List Byte) :=
  match smapGet s.tracker.heads q with
  | some b => some b
  | none => ringLine s q (headPos s q)

/-- Forget the head read ahead. -/
def dropHead (s : State) (q : Nat) : State := { s with tracker := { s.tracker with heads := smapErase s.tracker.heads q } }

/-- Free positions of a completion ring that no finished stream of the queue waits for. -/
def cqSpare (s : State) (q : Nat) : Nat :=
  reg s (K.CQ_SIZE q) - (reg s (K.CQ_PRODUCER q) + 2 ^ 32 - reg s (K.CQ_CONSUMER q)) % 2 ^ 32 -
    (s.tracker.streams.filter (fun x => decide (x.queue = q) && x.finish.isSome)).length

/-- A stopped stream's record is written before the ABORT's own (R62). -/
def awaitsStopped (s : State) (x : Stream) : Bool :=
  decide (x.d.opcode = 0x0F) && x.asked.any (fun i => (findStream s (i / 2)).isSome)

/-- Write the record of the queue's stream that finished first; an aborted accumulating descriptor's ordinal completes with its record
(R52, R62, R175). -/
def writeRecord (s : State) (q : Nat) : State :=
  match firstFinished s q with
  | none => s
  | some x =>
    if !cqFree s q || awaitsStopped s x then s
    else
      let s := recordStream s q x
      if x.taken && decide (x.status = 1) && accumulates x.d then rdxWake (ordinalEnded s x) else s

/-- Write records for as long as one may be written. -/
def writeRecords (q : Nat) : Nat → State → State
  | 0, s => s
  | fuel + 1, s => writeRecords q fuel (writeRecord s q)

/-- COMPLETION_RECORD: the record of the queue's stream that finished first, where the ring has room (R52-R54). In the safe state
only a FAIL_SAFETY record is still written (R411). DEDUCED: log entry 5. -/
def execCompletionRecord (q : Nat) (s : State) : Host.Outcome State Fault Refusal :=
  .next (
    if working s then keep s (writeRecord s q)
    else if alive s then
      match firstFinished s q with
      | some x => if x.status = 0x25 then keep s (recordNext s q) else s
      | none => s
    else s)

/-- A descriptor that STR has disposed of without accepting it, waiting for its record (R47, R55). -/
def refusedStream (s : State) (q : Nat) (d : Desc) (tokenZero : Bool) (status detail : Nat) : Stream :=
  { id := s.tracker.nextId, queue := q, d := d, tokenZero := tokenZero, varied := false, taken := false, fenceWait := false, hold := 0,
    epoch := 0, acceptedNs := upNs s, finish := some s.tracker.nextFinish, status := status, detail := detail % 2 ^ 32, tilesDone := 0,
    poison := false, inbox := [], nextIn := 0, pos := 0, pending := [], fetched := [], asked := [], unacked := 0, text := [], ordinal := 0,
    mark := 0, closing := false, degraded := [], stallRaised := false }

/-- Dispose of a descriptor with a status of R47 or R55. -/
def refuseDesc (s : State) (q : Nat) (d : Desc) (tokenZero : Bool) (status detail : Nat) : State :=
  let x := refusedStream s q d tokenZero status detail
  let t := s.tracker
  bump { s with tracker := { t with streams := t.streams ++ [x], nextId := t.nextId + 1, nextFinish := t.nextFinish + 1 } } K.STR_REFUSED 1

/-- Advance past the head. -/
def passHead (s : State) (q : Nat) : State := setReg (dropHead s q) (K.DQ_CONSUMER q) ((reg s (K.DQ_CONSUMER q) + 1) % 2 ^ 32)

/-- Dispose of poisoned heads as soon as they are read ahead, each where its record has a free position (R55). -/
def passPoisoned (q : Nat) : Nat → State → State
  | 0, s => s
  | fuel + 1, s =>
    if hasHead s q && (headBytes s q).isNone && decide (0 < cqSpare s q) then
      let n := reg s (K.DQ_CONSUMER q)
      let s := refuseDesc (structTouch s (qPart q) (reg s (K.DQ_BASE q) % 2 ^ 48) (headPos s q * 64)) q (descOf (zeros 64)) true 0x1F n
      passPoisoned q fuel (passHead (writeRecords q (s.tracker.streams.length) s) q)
    else s

/-- STR may accept or refuse the queue's head: it is readable, its class has an entry, its completion ring a free position (R52, R57). -/
def headReady (s : State) (q : Nat) : Bool := hasHead s q && (headBytes s q).isSome && cqFree s q && entryFree s (qClass q)

/-- A DQ_PRODUCER value lies ahead of the queue's consumer. -/
def isAhead (s : State) (q v : Nat) : Bool :=
  let d := (v + 2 ^ 32 - reg s (K.DQ_CONSUMER q)) % 2 ^ 32
  decide (0 < d ∧ d < 2 ^ 31)

/-- In paced mode the EP cycle of a DQ_PRODUCER write is noted (R353). -/
def noteRung (s : State) (q v : Nat) : State :=
  if reg s K.TIMING_MODE = 1 then
    let old := ((smapGet s.pace.rung q).getD []).filter (fun e => isAhead s q e.1)
    { s with pace := { s.pace with rung := smapPut s.pace.rung q (old ++ [(v, domainCycles s 0 (upNs s))]) } }
  else s

/-- The scheduled time of a queue's head: the EP cycle of the write that made it available (R353). -/
def headTime (s : State) (q : Nat) : Nat :=
  ((((smapGet s.pace.rung q).getD []).find? (fun e => isAhead s q e.1)).map Prod.snd).getD 0

/-- What a queue's head is ordered by: class, deadline and queue in free mode (R365), scheduled time, class and queue in paced mode (R351, R368). -/
def headKey (s : State) (q : Nat) : List Nat :=
  if reg s K.TIMING_MODE = 1 then [headTime s q, qClass q, q]
  else [qClass q, match headBytes s q with | some x => deadlineKey s (descOf x).deadline | none => 0, q]

/-- The head of queue a comes before that of queue b. -/
def headBefore (s : State) (a b : Nat) : Bool := keyBefore (headKey s a) (headKey s b)

/-- No other head that STR may take comes first (R367). -/
def headFirst (s : State) (q : Nat) : Bool :=
  (List.range 64).all (fun a => !(decide (a ≠ q) && headReady s a && headBefore s a q))

/-- The streams an ABORT matches: id × 2, plus 1 where its opcode can be aborted (R60, R61). -/
def abortable (o : Nat) : Bool := !([0x61, 0x70, 0x71, 0x72, 0x74, 0x75, 0x84, 0x85, 0x86].contains o)
def abortMatches (s : State) (d : Desc) : List Nat :=
  (s.tracker.streams.filter (fun x => x.taken && decide (x.queue = d.arg % 64 ∧ x.d.token = d.scalar % 2 ^ 32))).map (fun x => 2 * x.id + b2n (abortable x.d.opcode))

/-- The descriptor's names that are dirty in the write-back cache (R88). -/
def dirtyNames (s : State) (d : Desc) : List Nat :=
  (s.wb.filter (fun t => t.dirty && decide (t.part = d.part ∧ d.src ≤ t.name ∧ t.name < d.src + d.count))).map WbTile.name

/-- What a station copies of its settings when STR accepts a descriptor (R145, R169). -/
def acceptText (s : State) (d : Desc) : List Byte :=
  if d.opcode = 0x33 ∨ d.opcode = 0x34 then planText s (d.arg % 16)
  else if d.opcode = 0x42 then natLe 4 (reg s K.TRG_HOT_THRESHOLD)
  else []

/-- What the stations do when a descriptor is accepted (R118, R163, R187, R205, R254, R258, R264, R265, R418). -/
def acceptHooks (s : State) (x : Stream) : State :=
  let q := x.d.part
  let s := popAccepted (giveOrdinals s) x.d
  if x.d.opcode = 0x61 then
    trwAccept (if x.hold = 0 then { phaseAccept s q x.d with mixer := { s.mixer with bound := if s.mixer.bound.contains q then s.mixer.bound else q :: s.mixer.bound } } else s) x.id
  else if x.hold ≠ 0 then s
  else
    let s := if x.d.opcode = 0x80 then snpAccept s x.id else s
    let s := phaseAccept s q x.d
    let s := if boundKind x.d && !s.mixer.bound.contains q then { s with mixer := { s.mixer with bound := q :: s.mixer.bound } } else s
    if 0x50 ≤ x.d.opcode ∧ x.d.opcode ≤ 0x53 then rdxAccept s x else mixAccept s x.id

/-- Accept a descriptor: it takes a tracker entry (R47, R56, R58, R63, R257, R418). DEDUCED: log entry 26. DEDUCED: log entry 29. A descriptor
that is refused counts in STR_REFUSED alone (R47), also where R63 has one that is not marked count in VAR_UNMARKED. DESIGN CHOICE: log entry 99. -/
def acceptDesc (s : State) (q : Nat) (d : Desc) : State :=
  let hold := if boundKind d && commitHolds s d.part then 1 else if boundKind d && snapHolds s d.part then 2 else 0
  let x : Stream := { refusedStream s q d false 0 0 with
    varied := varies d, taken := true, hold := hold, epoch := reg s (K.EPOCH d.part), finish := none,
    fenceWait := d.fence && s.tracker.streams.any (fun y => decide (y.queue = q)),
    asked := if d.opcode = 0x0F then abortMatches s d else if d.opcode = 0x18 then dirtyNames s d else [], text := acceptText s d }
  let s := bump { s with tracker := { s.tracker with streams := s.tracker.streams ++ [x], nextId := s.tracker.nextId + 1 } } K.STR_ACCEPTED 1
  let s := if varies d then bump (if d.variance then s else bump s K.VAR_UNMARKED 1) K.VAR_RUN 1 else s
  acceptHooks s x

/-- The version of a head that STR accepts: where the ring line was rewritten after it was read ahead, either (R367). -/
def headVersion (s : State) (q : Nat) : State × List Byte :=
  match smapGet s.tracker.heads q with
  | none => (structTouch s (qPart q) (reg s (K.DQ_BASE q) % 2 ^ 48) (headPos s q * 64), (ringLine s q (headPos s q)).getD (zeros 64))
  | some old =>
    let (s, n) := draw s
    (s, if Config.headChoice n then old else (ringLine s q (headPos s q)).getD old)

/-- Take the queue's head. -/
def takeHead (s : State) (q : Nat) : State :=
  let (s, b) := headVersion s q
  let s := passHead s q
  let d := descOf b
  match descRefuses s q d with
  | some (a, b) => refuseDesc s q d false a b
  | none => acceptDesc s q d

/-- DESCRIPTOR_FETCH (R47, R55-R57, R360, R365-R368): none is fetched while EP is in reset. DEDUCED: log entry 23. -/
def execDescriptorFetch (q : Nat) (s : State) : Host.Outcome State Fault Refusal :=
  whenWorking s (
    if !epOpen s then s
    else
    let s := passPoisoned q (reg s (K.DQ_SIZE q)) s
    if headReady s q && headFirst s q then takeHead s q else s)

/-- Any descriptor of the queue still awaits its record. -/
def queueBusy (s : State) (q : Nat) : Bool := s.tracker.streams.any (fun x => decide (x.queue = q))

/-- The ring begins anew: no DQ_PRODUCER write stands. -/
def dropRung (s : State) (q : Nat) : State := { s with pace := { s.pace with rung := smapErase s.pace.rung q } }

/-- A write of Q_STATE (R49, R50). -/
def qStateWrite (s : State) (q v : Nat) : State × Nat :=
  if v = 0 then
    if reg s (K.Q_STATE q) = 0 then (s, 0)
    else (setReg (dropHead s q) (K.Q_STATE q) (if queueBusy s q then 3 else 0), 0)
  else if v = 1 then
    let ds := reg s (K.DQ_SIZE q)
    let cs := reg s (K.CQ_SIZE q)
    if reg s (K.Q_STATE q) ≠ 0 then (s, 0x08000022)
    else if !(yardHomed s (qPart q) (reg s (K.DQ_BASE q) % 2 ^ 48) (ceilDiv (min ds 65536) 64) &&
        yardHomed s (qPart q) (reg s (K.CQ_BASE q) % 2 ^ 48) (ceilDiv (min cs 65536) 256)) then (s, 0x08000022)
    else if !(isPow2 ds && decide (64 ≤ ds ∧ ds ≤ 65536) && isPow2 cs && decide (256 ≤ cs ∧ cs ≤ 65536)) then (s, 0x06090030)
    else (setRegs (dropRung (dropHead s q) q) [(K.DQ_PRODUCER q, 0), (K.DQ_CONSUMER q, 0), (K.CQ_PRODUCER q, 0), (K.CQ_CONSUMER q, 0), (K.Q_STATE q, 1)], 0)
  else (s, 0x06090030)

/-- A write of DQ_PRODUCER or CQ_CONSUMER (R48, R51). -/
def indexWrite (s : State) (q : Nat) (consumer : Bool) (v : Nat) : State :=
  let v := v % 2 ^ 32
  if consumer then setReg s (K.CQ_CONSUMER q) v
  else
    let s := noteRung (setReg s (K.DQ_PRODUCER q) v) q v
    if reg s (K.DQ_SIZE q) < (v + 2 ^ 32 - reg s (K.DQ_CONSUMER q)) % 2 ^ 32 then
      bump (setReg (dropHead s q) (K.Q_STATE q) 2) K.DQ_OVERRUN 1
    else s

/-- QUEUE_DRAINED (R50). -/
def execQueueDrained (q : Nat) (s : State) : Host.Outcome State Fault Refusal :=
  whenWorking s (if reg s (K.Q_STATE q) = 3 ∧ queueBusy s q = false then setReg s (K.Q_STATE q) 0 else s)

/-- The head that a ring write would overwrite is kept as STR read it ahead (R367). -/
def keepHead (s : State) (q pos : Nat) : State :=
  if hasHead s q && decide (pos = headPos s q) && !smapHas s.tracker.heads q then
    match ringLine s q pos with
    | some b => { s with tracker := { s.tracker with heads := smapPut s.tracker.heads q b } }
    | none => s
  else s

/-- A command of the queue channel is answered while EP is out of reset (R360, R482). -/
def onChannel (s : State) (f : State → State) : Host.Outcome State Fault Refusal :=
  whenAlive s (if epOpen s then f s else { s with chan := .none })

/-- WRITE_DESC (R482): the line at that position of the ring, answered with error where it changes nothing. DEDUCED: log entry 28. -/
def execWriteDesc (q pos : Nat) (line : List Byte) (s : State) : Host.Outcome State Fault Refusal :=
  onChannel s (fun s =>
    let p := pos % max 1 (reg s (K.DQ_SIZE q))
    let first := reg s (K.DQ_BASE q) % 2 ^ 48
    if !working s || decide (reg s (K.Q_STATE q) = 0) || (slotOf s (qPart q) (first + p / 64)).isNone then { s with chan := .error }
    else { structWrite (keepHead s q p) (qPart q) first (p * 64) (bytesAt line 0 64) with chan := .ok })

/-- READ_COMPL (R482). -/
def execReadCompl (q pos : Nat) (s : State) : Host.Outcome State Fault Refusal :=
  onChannel s (fun s =>
    let first := reg s (K.CQ_BASE q) % 2 ^ 48
    if reg s (K.CQ_SIZE q) ≤ pos then { s with chan := .error }
    else
      let t := if working s then structTouch s (qPart q) first (pos * 16) else s
      match structBytes s (qPart q) first (pos * 16) 16 with
      | some b => { t with chan := .record b }
      | none => { t with chan := .error })

/-- WRITE_INDEX (R48-R52, R482). -/
def execWriteIndex (q : Nat) (consumer : Bool) (value : Nat) (s : State) : Host.Outcome State Fault Refusal :=
  onChannel s (fun s => if working s then { indexWrite s q consumer value with chan := .ok } else { s with chan := .error })

/-- Stop one stream at its next operand-set boundary: its record carries ABORTED (R62, R124, R175, R198). -/
def abortStream (s : State) (x : Stream) : State :=
  let k := x.d.arg % 32
  let s := if (x.d.opcode = 0x21 ∨ x.d.opcode = 0x24) ∧ x.mark = 1 then
      match hodStack s k with
      | some h => endStall (if x.tilesDone = 0 then putHod s { h with recs := h.recs.drop 1 } else s) k
      | none => s
    else s
  let s := if 0x50 ≤ x.d.opcode ∧ x.d.opcode ≤ 0x53 then rdxEnd s x.id 1 0 else s
  bump (rdxSettle (setFinish (updStream s x.id (fun y => { y with status := 1, detail := 0, hold := 0, fenceWait := false, unacked := 0, inbox := [], pending := [] })) x.id)) K.ABORTS_WON 1

/-- What an ABORT does to one stream it matched: the stream is stopped, or completed first, or cannot be aborted. DEDUCED: log entry 27. -/
def abortOne (s : State) (m : Nat) : State × Bool :=
  if m % 2 = 0 then (s, false)
  else
    match findStream s (m / 2) with
    | none => (bump s K.ABORTS_LOST 1, false)
    | some x => if x.finish.isSome || x.closing then (bump s K.ABORTS_LOST 1, false) else (abortStream s x, true)

/-- Stop every match: the state, and those stopped. -/
def abortAll : List Nat → State → State × List Nat
  | [], s => (s, [])
  | m :: t, s =>
    let (s, won) := abortOne s m
    let r := abortAll t s
    (r.1, if won then m :: r.2 else r.2)

/-- ABORT (R60-R62). -/
def abortRun (s : State) (x : Stream) : State :=
  let lost := (x.asked.filter (fun m => decide (m % 2 = 0))).length
  let (s, won) := abortAll x.asked s
  let s := updStream s x.id (fun y => { y with asked := won, tilesDone := won.length })
  if won ≠ [] then endStream s x.id 0 0
  else if 0 < lost then endStream s x.id 0x1D lost
  else endStream s x.id 2 0

/-- ABORT (R60-R62). -/
def execAbort (sid : Nat) (s : State) : Host.Outcome State Fault Refusal := whenWorking s (onStream s sid 0x0F abortRun)

end Sys2Proof.Machine
end

