-- ==== Sys2Proof/Machine/Scrub.lean ====
section
/-! DEFINITION. The scrubber (R390-R394). -/
namespace Sys2Proof.Machine

/-- Insert a run of lines by its first line. -/
def insertRun (r : Nat × Nat) : List (Nat × Nat) → List (Nat × Nat)
  | [] => [r]
  | x :: t => if r.1 ≤ x.1 then r :: x :: t else x :: insertRun r t

/-- The runs of lines of port p that a lap walks: its tiles, their metadata lines and the home-map copies on it, by line of
the stack, ascending (R390). -/
def portRuns (s : State) (p : Nat) : List (Nat × Nat) :=
  let limit := reg s (K.MP_TILE_LIMIT p)
  let copy := fun (q a : Nat) => if reg s (K.HM_STATE q) ≠ 0 ∧ a / 2 ^ 44 = p then [((a % 2 ^ 44 / 64, ceilDiv (reg s (K.HM_NAMES q)) 8) : Nat × Nat)] else []
  ((List.range 16).flatMap (fun q => copy q (reg s (K.HM_COPY_A q)) ++ copy q (reg s (K.HM_COPY_B q)))).foldl (fun l r => insertRun r l)
    (insertRun (0, 64 * limit) [(64 * reg s (K.MP_META_BASE p), limit)])

/-- The runs of lines of a lap, in order, as (target, first line, lines): 16 is the yard (R390, R393). DEDUCED: log entry 77. -/
def lapRuns (s : State) : List (Nat × Nat × Nat) :=
  (16, 0, 524288 * 64) :: (List.range 16).flatMap (fun p =>
    if (reg s K.SCR_MP_PORTS).testBit p ∧ reg s (K.MP_STATE p) = 1 then (portRuns s p).map (fun r => (p, r.1, r.2)) else [])

/-- The lines of a lap. -/
def lapLines (s : State) : Nat := ((lapRuns s).map (fun r => r.2.2)).sum

/-- The line at a place of the lap, as (target, line). -/
def lapLine : List (Nat × Nat × Nat) → Nat → Option (Nat × Nat)
  | [], _ => none
  | r :: t, n => if n < r.2.2 then some (r.1, r.2.1 + n) else lapLine t (n - r.2.2)

/-- The partition and name whose home is at a place. -/
def ownerOf (s : State) (l : Loc) : Option (Nat × Nat) :=
  (s.homes.entries.find? (fun e => decide (locOfEntry e.2 = l))).map (fun e => (e.1 / 2 ^ 48, e.1 % 2 ^ 48))

/-- A yard slot whose tile a read by slot checks: a cached tile or a hod segment's (R87, R116). -/
def slotHoldsTile (s : State) (slot : Nat) : Bool :=
  s.wb.any (fun x => decide (x.slot = slot)) || (yardSegsUsed s).any (fun k => decide (hodBase s + 64 * k ≤ slot ∧ slot < hodBase s + 64 * k + 64))

/-- Count what the scrubber found (R415). -/
def countScrub (s : State) (f : Found) : State :=
  match f with
  | .clean => s
  | .poisoned => s
  | .corrected _ => bump s K.SCR_CORRECTED 1
  | .uncorrectable => bump s K.SCR_POISONED 1

/-- Scrub line j of the tile at a place: a coded data line is repaired at once, and a two-symbol correction elsewhere is
verified by its whole tile (R382, R383, R390). -/
def scrubTileLine (s : State) (l : Loc) (base ma off j : Nat) : State :=
  let a := base + 64 * j
  let f := (peekLine s.mem a).found
  let s := countScrub s f
  match ownerOf s l with
  | some (q, name) =>
    match isCodedData s q name, codedCourse s q name with
    | true, some c =>
      let r := readLine s a true
      if r.2.poison || isCorr2 r.2 then (startRepair r.1 q c (ownRank s q) (2 ^ j) false).1 else r.1
    | _, _ => if f = .corrected 2 then (readTileAt s base ma off false (identName name) (some q)).1 else (readLine s a false).1
  | none =>
    let held := match l with
      | .yard k => slotHoldsTile s k
      | _ => true
    if f = .corrected 2 ∧ held = true then (readTileAt s base ma off false (identLoc l) none).1 else (readLine s a false).1

/-- Scrub one line of the yard: every line is walked, those of no tile by themselves (R67, R390). -/
def scrubYard (s : State) (line : Nat) : State :=
  let slot := line / 64
  if slot < 522240 then scrubTileLine s (.yard slot) (yardAddr slot 0) (yardMetaAddr slot) (yardMetaOff slot) (line % 64)
  else (readLine (countScrub s (peekLine s.mem (64 * line)).found) (64 * line) false).1

/-- Scrub one line of port p, read through it: a home-map line that initialisation or an update wrote is clean (R80). -/
def scrubPort (s : State) (p line : Nat) : State :=
  match mpTransaction s p with
  | (s, some _) => s
  | (s, none) =>
    let x := p * 2 ^ 44 + 64 * line
    if s.homes.inits.any (fun r => decide (r.1 ≤ x / 8 ∧ x / 8 < r.2)) || smapHas s.homes.words (x / 8) then s
    else if line < 64 * reg s (K.MP_TILE_LIMIT p) then
      scrubTileLine s (.stack p (line / 64)) (mpAddr (mpTile p (line / 64) 0)) (metaLineAddr s p (line / 64)) 0 (line % 64)
    else (readLine (countScrub s (peekLine s.mem (mpAddr x)).found) (mpAddr x) false).1

/-- Scrub one line of a target. -/
def scrubOne (s : State) (target line : Nat) : State :=
  let s := bump s K.SCR_LINES 1
  if target = 16 then (if line < 524288 * 64 then scrubYard s line else s) else scrubPort s target line

/-- A lap is complete (R390, R392). -/
def lapDone (s : State) : State :=
  let t := (upNs s - s.scrub.lapStart) / 1000000000
  bump (setReg { s with scrub := { pos := 0, lapStart := upNs s, limitHits := 0, ranges := [] } } K.SCR_LAST_LAP_S (t % 2 ^ 32)) K.SCR_LAPS 1

/-- SCRUB_LINE: in hardware mode, the next line of the lap (R390). -/
def scrubNext (s : State) : State :=
  if reg s K.SCR_MODE ≠ 1 then s
  else
    match lapLine (lapRuns s) s.scrub.pos with
    | none => lapDone s
    | some (t, n) =>
      let s := scrubOne { s with scrub := { s.scrub with pos := s.scrub.pos + 1 } } t n
      if lapLines s ≤ s.scrub.pos then lapDone s else s

/-- Whether the runs a list names on a target cover lines `lo` up to `hi`. -/
def runsCover (l : List (Nat × Nat × Nat)) (target hi : Nat) : Nat → Nat → Bool
  | 0, lo => decide (hi ≤ lo)
  | fuel + 1, lo =>
    if hi ≤ lo then true
    else
      match l.find? (fun r => decide (r.1 = target ∧ r.2.1 ≤ lo ∧ lo < r.2.1 + r.2.2)) with
      | some r => runsCover l target hi fuel (r.2.1 + r.2.2)
      | none => false

/-- Scrub `n` lines of a target from a line on. -/
def scrubRun (target : Nat) : Nat → Nat → State → State
  | 0, _, s => s
  | n + 1, line, s => scrubRun target n (line + 1) (scrubOne s target line)

/-- The lines of a target: the yard's slots, or a stack's bytes (R67, R72). -/
def targetLines (target : Nat) : Nat := if target = 16 then 524288 * 64 else 2 ^ 38

/-- A write of SCR_HOST_RANGE: the range is walked, and the lap is complete where the ranges cover every line of it (R393). A range past the
target's last line is out of range. DEDUCED: log entry 77. -/
def hostRange (s : State) (b : List Byte) : State × Nat :=
  let target := leAt b 0 1 % 32
  let first := leAt b 8 8
  let n := leAt b 16 4
  if reg s K.SCR_MODE ≠ 2 then (s, sdoState)
  else if 16 < target ∨ targetLines target < first + n then (s, sdoRange)
  else
    let s := scrubRun target n first (setStr s K.SCR_HOST_RANGE b)
    let rs := s.scrub.ranges ++ [(target, first, n)]
    let s := { s with scrub := { s.scrub with ranges := rs } }
    (if (lapRuns s).all (fun r => runsCover rs r.1 (r.2.1 + r.2.2) rs.length r.2.1) then lapDone s else s, 0)

/-- SCRUB_LINE (R390). -/
def execScrubLine (s : State) : Host.Outcome State Fault Refusal := whenWorking s (scrubNext s)

/-- SCR_LAP_LIMIT (R392): the lap has passed one more limit. -/
def execScrLapLimit (s : State) : Host.Outcome State Fault Refusal :=
  let t := (upNs s - s.scrub.lapStart) / 1000000000
  whenWorking s (if reg s K.SCR_MODE ≠ 0 ∧ reg s K.SCR_LAP_LIMIT_S * (s.scrub.limitHits + 1) ≤ t then
    raise { s with scrub := { s.scrub with limitHits := s.scrub.limitHits + 1 } } 0x12 stSCR 0 none false t else s)

end Sys2Proof.Machine
end

