-- ==== Sys2Proof/Machine/Timebase.lean ====
section
/-! DEFINITION. The timebase, its discipline by TPPS, and the PTP ordinary clock (R455-R462, R487). -/
namespace Sys2Proof.Machine

/-- The timebase wraps after 2^48 seconds (R455); its unit is 2^-16 ns. -/
def tbSecond : Nat := 1000000000 * 65536
def tbWrap : Nat := 2 ^ 48 * tbSecond

/-- The nominal increment per TREF cycle, to the nearest unit (R455). -/
def nominalIncrement (s : State) : Nat := (2 * tbSecond + reg s K.TREF_HZ) / (2 * reg s K.TREF_HZ)

/-- The largest slew from the nominal increment: 500 ppm (R456). -/
def slewOk (s : State) (v : Nat) : Bool :=
  decide (v * 1000000 ≤ nominalIncrement s * 1000500) && decide (nominalIncrement s * 999500 ≤ v * 1000000)

/-- A time in the layout of TB_NOW (R462). -/
def tbBytes (t : Nat) : List Byte := natLe 2 (t % 65536) ++ natLe 4 (t / 65536 % 1000000000) ++ natLe 6 (t / tbSecond)

/-- The time twelve bytes spell. -/
def tbOf (b : List Byte) : Nat := leAt b 0 2 + leAt b 2 4 * 65536 + leAt b 6 6 * tbSecond

/-- A signed number of `n` bits, two's complement. -/
def signedOf (n v : Nat) : Int := if v < 2 ^ (n - 1) then (v : Int) else (v : Int) - (2 ^ n : Nat)

/-- Set the value at one instant: a step (R456). -/
def tbStep (s : State) (t : Nat) : State := bump { s with time := { s.time with tb := t % tbWrap } } K.TB_STEPS 1

/-- Move the value by a signed phase (R456, R461). -/
def tbShift (s : State) (d : Int) : State := tbStep s (((s.time.tb : Int) + d) % (tbWrap : Int)).toNat

/-- A write of TB_SET (R457): a value in the layout of TB_NOW. -/
def tbSetWrite (s : State) (b : List Byte) : State × Nat :=
  if reg s K.PTP_STATE ≠ 0 then (s, 0x08000022)
  else if 1000000000 ≤ leAt b 2 4 then (s, 0x06090030)
  else (tbStep (setStr s K.TB_SET b) (tbOf b), 0)

/-- A write of TB_ADJUST (R461, R462): a new increment and a signed phase step. -/
def tbAdjustWrite (s : State) (b : List Byte) : State × Nat :=
  let d := signedOf 64 (leAt b 4 8)
  if reg s K.MSN_PTP_MODE ≠ 2 then (s, 0x08000022)
  else if !slewOk s (leAt b 0 4) then (s, 0x06090030)
  else
    let s := setReg s K.TB_INCREMENT (leAt b 0 4)
    (if d = 0 then s else tbShift s d, 0)

/-- No master is selected. -/
def ptpForget (s : State) : State :=
  setStr (setReg { s with time := { s.time with best := [], syncAt := none, t1t2 := none, reqAt := none, delay := 0, lock := 0, stepped := false } } K.PTP_PORT 0)
    K.PTP_MASTER (zeros 8)

/-- The discipline that TB_SOURCE and MSN_PTP_MODE select begins afresh (R457): FREE, LISTENING, or TPPS awaited. -/
def ptpRestate (s : State) : State :=
  let s := ptpForget { s with time := { s.time with wasLocked := false, misses := 0, lastTpps := none } }
  setRegs s [(K.TB_INCREMENT, nominalIncrement s), (K.PTP_STATE, if reg s K.TB_SOURCE = 1 ∧ reg s K.MSN_PTP_MODE ≠ 0 then 1 else 0)]

/-- The ordinary clock runs (R458). DEDUCED: log entry 79. -/
def ptpOn (s : State) : Bool :=
  decide (reg s K.START_STAGE = 5) && !s.mason.diag && decide (reg s K.TB_SOURCE = 1) && decide (reg s K.MSN_PTP_MODE = 1 ∨ reg s K.MSN_PTP_MODE = 2)

/-- A port's number in PTP_PORT. -/
def portNo (p : MgPort) : Nat := match p with | .mga => 1 | .mgb => 2

/-- The dataset comparison of the best master clock algorithm, in its order, then the sender and the port (R458). -/
def announceKey (a : Announce) : List Nat :=
  [a.priority1, a.clockClass, a.accuracy, a.variance, a.priority2, a.grandmaster, a.steps, a.msg.source, portNo a.msg.port]

/-- The best of the candidate masters. -/
def bestMaster (l : List Announce) : Option Announce :=
  match l with
  | [] => none
  | a :: t => some (t.foldl (fun b x => if keyBefore (announceKey x) (announceKey b) then x else b) a)

/-- The port and clock identity of the master selected. -/
def isSelected (s : State) (m : PtpMsg) : Bool :=
  decide (2 ≤ reg s K.PTP_STATE) && decide (reg s K.PTP_PORT = portNo m.port) && decide (strN s K.PTP_MASTER 8 = natBe 8 m.source)

/-- Select among the candidates: a new master enters ACQUIRING (R457, R458). -/
def ptpSelect (s : State) : State :=
  match bestMaster s.time.best with
  | none => s
  | some a =>
    if isSelected s a.msg && decide (reg s K.PTP_STATE = 2 ∨ reg s K.PTP_STATE = 3) then s
    else
      let s := setStr (setRegs s [(K.PTP_PORT, portNo a.msg.port), (K.PTP_STATE, 2)]) K.PTP_MASTER (natBe 8 a.msg.source)
      { s with time := { s.time with lock := 0, stepped := false, syncAt := none, t1t2 := none, reqAt := none, delay := 0 } }

/-- A message that the clock does not use (R458). -/
def ptpDiscard (s : State) : State := bump s K.PTP_DISCARDED 1

/-- Latency entries of a port, in units of 2^-16 ns (R458). -/
def rxLatency (s : State) (p : MgPort) : Nat := reg s (K.PTP_RX_LATENCY_NS (portNo p - 1)) * 65536
def txLatency (s : State) (p : MgPort) : Nat := reg s (K.PTP_TX_LATENCY_NS (portNo p - 1)) * 65536

/-- The servo's slew: an increment within 500 ppm of the nominal one, which the spec does not fix further. -/
def slew (s : State) : State :=
  let r := draw s
  let n := nominalIncrement s
  let d := n * (Config.servoPpm r.2 % 501) / 1000000
  setReg r.1 K.TB_INCREMENT (if Config.servoSign r.2 then n - d else n + d)

/-- The offset in units of 2^-16 ns is within ±200 ns. -/
def offsetSmall (o : Int) : Bool := decide (o.natAbs ≤ 200 * 65536)

/-- The states of R457 after an offset is measured, and the servo's correction in mode 1 (R457, R459, R461). -/
def ptpMeasured (s : State) (o : Int) : State :=
  let s := setReg s K.PTP_OFFSET_NS (toFp32 .rne (ofSigned o (-16) false)).toNat
  let servo := decide (reg s K.MSN_PTP_MODE = 1)
  let s := { s with time := { s.time with lock := if offsetSmall o then s.time.lock + 1 else 0 } }
  if reg s K.PTP_STATE = 3 then
    if offsetSmall o then
      let s := if servo then slew s else s
      { s with time := { s.time with frozen := reg s K.TB_INCREMENT } }
    else setReg { s with time := { s.time with stepped := false } } K.PTP_STATE 2
  else
    let steps := servo && !s.time.stepped && decide (reg s K.PTP_STEP_NS * 65536 < o.natAbs)
    let s := if steps then tbShift { s with time := { s.time with stepped := true, lock := 0, t1t2 := none } } (-o) else if servo then slew s else s
    if 16 ≤ s.time.lock then setReg { s with time := { s.time with wasLocked := true, frozen := reg s K.TB_INCREMENT } } K.PTP_STATE 3 else s

/-- A Sync's two times are known: the offset less the path delay. -/
def ptpPair (s : State) (t1 t2 : Nat) : State :=
  ptpMeasured (bump { s with time := { s.time with t1t2 := some (t1, t2), syncAt := none } } K.PTP_SYNC_RX 1) ((t2 : Int) - t1 - s.time.delay)

/-- SYNC (R458). -/
def takeSync (s : State) (m : PtpMsg) (twoStep : Bool) : State :=
  if !ptpOn s then s
  else if m.domain ≠ reg s K.PTP_DOMAIN ∨ isSelected s m = false then ptpDiscard s
  else
    let t2 := s.time.tb - rxLatency s m.port
    if twoStep then { s with time := { s.time with syncAt := some (m.seq, t2) } } else ptpPair s m.time t2

/-- FOLLOW_UP (R458): the precise origin time of the Sync of its number. -/
def takeFollowUp (s : State) (m : PtpMsg) : State :=
  if !ptpOn s then s
  else
    match s.time.syncAt with
    | some (seq, t2) => if m.domain = reg s K.PTP_DOMAIN ∧ isSelected s m = true ∧ m.seq = seq then ptpPair s m.time t2 else ptpDiscard s
    | none => ptpDiscard s

/-- ANNOUNCE (R458): the latest of each sender and port is a candidate. PRESUMED: log entry 78. -/
def takeAnnounce (s : State) (a : Announce) : State :=
  if !ptpOn s then s
  else if a.msg.domain ≠ reg s K.PTP_DOMAIN then ptpDiscard s
  else
    let rest := s.time.best.filter (fun x => decide (¬ (x.msg.source = a.msg.source ∧ x.msg.port = a.msg.port)))
    ptpSelect { s with time := { s.time with best := rest ++ [a] } }

/-- DELAY_REQ (R458): sent on the selected master's port, its departure stamped. -/
def sendDelayReq (s : State) : State :=
  let p := if reg s K.PTP_PORT = 1 then MgPort.mga else MgPort.mgb
  let up := match p with | .mga => s.pins.mga | .mgb => s.pins.mgb
  if ptpOn s && up && decide (reg s K.PTP_PORT ≠ 0) && decide (reg s K.PTP_STATE = 2 ∨ reg s K.PTP_STATE = 3) then
    let t3 := s.time.tb + txLatency s p
    let n := s.time.delaySeq
    { s with time := { s.time with sent := s.time.sent ++ [{ port := p, seq := n, depart := t3 }], reqAt := some (n, t3), delaySeq := (n + 1) % 65536 } }
  else s

/-- DELAY_RESP (R458, R461): the mean path delay, and in mode 2 the exchange's four times for the host. -/
def takeDelayResp (s : State) (m : PtpMsg) : State :=
  if !ptpOn s then s
  else
    match s.time.reqAt, s.time.t1t2 with
    | some (seq, t3), some (t1, t2) =>
      if m.domain = reg s K.PTP_DOMAIN ∧ isSelected s m = true ∧ m.seq = seq then
        let d := (((t2 : Int) - t1) + ((m.time : Int) - t3)) / 2
        let e := tbBytes t1 ++ tbBytes t2 ++ tbBytes t3 ++ tbBytes m.time
        let es := if reg s K.MSN_PTP_MODE = 2 then s.time.exchanges ++ [e] else s.time.exchanges
        { s with time := { s.time with delay := d, reqAt := none, exchanges := es.drop (es.length - 16) } }
      else ptpDiscard s
    | _, _ => ptpDiscard s

/-- ANNOUNCE_TIMEOUT (R457, R458): the selected master is given up, and the block selects again. -/
def announceTimeout (s : State) : State :=
  if !ptpOn s then s
  else
    match bestMaster s.time.best with
    | none => s
    | some a =>
      let rest := s.time.best.filter (fun x => decide (¬ (x.msg.source = a.msg.source ∧ x.msg.port = a.msg.port)))
      let s := bump { s with time := { s.time with best := rest } } K.PTP_ANNOUNCE_TIMEOUTS 1
      if rest = [] then
        let locked := s.time.wasLocked
        let f := s.time.frozen
        let s := ptpForget s
        if locked then setRegs s [(K.PTP_STATE, 4), (K.TB_INCREMENT, f)] else setRegs s [(K.PTP_STATE, 1), (K.TB_INCREMENT, nominalIncrement s)]
      else ptpSelect s

/-- TPPS_EDGE (R461): a whole second. `cycles` is the TREF count since the edge before. -/
def tppsEdge (s : State) (cycles : Nat) : State :=
  if reg s K.TB_SOURCE ≠ 2 ∨ s.time.running = false then s
  else
    let sec := s.time.tb / tbSecond
    let sec := match s.time.newSeconds with
      | some v => v
      | none => if s.time.tb / 65536 % 1000000000 < 500000000 then sec else sec + 1
    let t := sec * tbSecond % tbWrap
    let s := if t = s.time.tb then s else tbStep s t
    let inc := if cycles = 0 then 0 else (2 * tbSecond + cycles) / (2 * cycles)
    let s := if reg s K.MSN_PTP_MODE = 1 ∧ s.time.lastTpps ≠ none ∧ slewOk s inc = true then setReg s K.TB_INCREMENT inc else s
    setReg { s with time := { s.time with newSeconds := none, misses := 0, lastTpps := some (upNs s) } } K.PTP_STATE 5

/-- TPPS_MISSED (R461, R487): the third in a row enters HOLDOVER. -/
def tppsMissed (s : State) : State :=
  if reg s K.TB_SOURCE ≠ 2 ∨ s.time.lastTpps = none then s
  else
    let s := bump { s with time := { s.time with misses := s.time.misses + 1, lastTpps := some (upNs s) } } K.TPPS_MISSED 1
    if 3 ≤ s.time.misses ∧ reg s K.PTP_STATE = 5 then setReg s K.PTP_STATE 4 else s

/-- SYNC (R458). -/
def execSync (m : PtpMsg) (twoStep : Bool) (s : State) : Host.Outcome State Fault Refusal := whenAlive s (takeSync s m twoStep)

/-- FOLLOW_UP (R458). -/
def execFollowUp (m : PtpMsg) (s : State) : Host.Outcome State Fault Refusal := whenAlive s (takeFollowUp s m)

/-- ANNOUNCE (R458). -/
def execAnnounce (a : Announce) (s : State) : Host.Outcome State Fault Refusal := whenAlive s (takeAnnounce s a)

/-- DELAY_REQ (R458). -/
def execDelayReq (s : State) : Host.Outcome State Fault Refusal := whenAlive s (sendDelayReq s)

/-- DELAY_RESP (R458, R461). -/
def execDelayResp (m : PtpMsg) (s : State) : Host.Outcome State Fault Refusal := whenAlive s (takeDelayResp s m)

/-- ANNOUNCE_TIMEOUT (R457, R458). -/
def execAnnounceTimeout (s : State) : Host.Outcome State Fault Refusal := whenAlive s (announceTimeout s)

/-- TPPS_EDGE (R461, R487). -/
def execTppsEdge (cycles : Nat) (s : State) : Host.Outcome State Fault Refusal := whenAlive s (tppsEdge s cycles)

/-- TPPS_MISSED (R461, R487). -/
def execTppsMissed (s : State) : Host.Outcome State Fault Refusal := whenAlive s (tppsMissed s)

end Sys2Proof.Machine
end

