-- ==== Sys2Proof/Machine/Setup.lean ====
section
/-! DEFINITION. The writes of dictionary entries that have conditions or effects of their own: regions, ports, home maps, queues' neighbours,
groups, windows, the wythe map, the atomic, the flip mask. Each answers the state and the SDO abort code, 0 where it is accepted. State
conditions come before value conditions (R503). -/
namespace Sys2Proof.Machine

/-- Accept a value. -/
def put (s : State) (k v : Nat) : State × Nat := (setReg s k v, 0)

/-- Accept a value within a range (R503 step 6). -/
def putRange (s : State) (k v lo hi : Nat) : State × Nat := if lo ≤ v ∧ v ≤ hi then put s k v else (s, sdoRange)

/-- Refuse for the block's state (R503 step 5), or go on. -/
def barred (b : Bool) (s : State) (w : State × Nat) : State × Nat := if b then (s, sdoState) else w

/-- Drop the write-back tiles whose cache a layout change moved (R71): what they held is lost. -/
def dropMoved (s t : State) : State := { t with wb := t.wb.filter (fun x => decide (wbBase t x.part = wbBase s x.part ∧ reg t (K.WB_SLOTS x.part) = reg s (K.WB_SLOTS x.part))) }

/-- The home pool of a layout would end at or below a homed slot (R71). -/
def poolCuts (s t : State) : Bool := (usedSlots s).any (fun k => decide (homePool t ≤ k))

/-- A write of a region entry (R70, R71). -/
def regionWrite (s : State) (k v : Nat) : State × Nat :=
  let t := setReg s k v
  if anyJob s || poolCuts s t then (s, sdoState)
  else if v % 16 ≠ 0 ∨ homePool t < 4096 ∨ (k = K.SST_MAPCACHE_TILES ∧ ¬ (2048 ≤ v ∧ v ≤ 65536)) then (s, sdoRange)
  else (dropMoved s { t with homes := { t.homes with lru := t.homes.lru.take (reg t K.SST_MAPCACHE_TILES * 64) } }, 0)

/-- A write of a port's tile limit or metadata base (R77). -/
def portWrite (s : State) (p : Nat) (sub v : Nat) : State × Nat :=
  let t := setReg s ((0x2220 + p) * 256 + sub) v
  if anyJob s then (s, sdoState)
  else if reg t (K.MP_META_BASE p) < reg t (K.MP_TILE_LIMIT p) ∨ 2 ^ 44 < reg t (K.MP_META_BASE p) * 4096 + reg t (K.MP_TILE_LIMIT p) * 64 then (s, sdoRange)
  else (t, 0)

/-- A copy of a home map lies beyond the tile range and the metadata region of its port, and within its stack (R79). -/
def copyFits (s : State) (a n : Nat) : Bool :=
  let p := a / 2 ^ 44
  let o := a % 2 ^ 44
  decide (a < 2 ^ 48 ∧ a % 64 = 0 ∧ reg s (K.MP_TILE_LIMIT p) * 4096 ≤ o ∧ reg s (K.MP_META_BASE p) * 4096 + reg s (K.MP_TILE_LIMIT p) * 64 ≤ o ∧ o + 8 * n ≤ 2 ^ 44)

/-- The conditions on a home map (R79), and that it shares no name with the write-back range (R89). -/
def mapFormed (s : State) (q : Nat) : Bool :=
  let n := reg s (K.HM_NAMES q)
  let a := reg s (K.HM_COPY_A q)
  let b := reg s (K.HM_COPY_B q)
  rangeOk (reg s (K.HM_FIRST q)) n && decide (1 ≤ n) && decide (a / 2 ^ 44 ≠ b / 2 ^ 44) && copyFits s a n && copyFits s b n &&
    !(decide (reg s (K.WB_SLOTS q) ≠ 0) && overlaps (reg s (K.HM_FIRST q)) n (reg s (K.WB_FIRST q)) (reg s (K.WB_NAMES q)))

/-- A structure that the home map keeps in place is on (R79). -/
def mapInUse (s : State) (q : Nat) : Bool :=
  (List.range 4).any (fun i => decide (reg s (K.Q_STATE (4 * q + i)) ≠ 0)) || decide (reg s (K.WIN_STATE q) = 1) || decide (reg s (K.RG_STATE q) = 1) ||
    decide (reg s (K.WYTHE_STATE q) = 1) || decide (reg s (K.BG_STATE q) = 1) || (decide (reg s K.LOG_STATE = 1) && decide (reg s K.LOG_PARTITION = q))

/-- The keys of partition q in a map keyed by partition × 2^48 + name. -/
def dropNames {α : Type} (m : SMap α) (q : Nat) : SMap α := smapEraseRun m (q * 2 ^ 48) ((q + 1) * 2 ^ 48)

/-- The partition's homes are gone: its yard slots are free and its map lines leave the cache. -/
def unhome (s : State) (q : Nat) : State :=
  { s with homes := { s.homes with entries := dropNames s.homes.entries q, lru := s.homes.lru.filter (fun k => decide (k / 2 ^ 48 ≠ q)) } }

/-- A write of HM_STATE (R79). DEDUCED: log entry 83. -/
def hmWrite (s : State) (q v : Nat) : State × Nat :=
  if jobAttached s q then (s, sdoState)
  else if v = 1 then
    if reg s (K.HM_STATE q) ≠ 0 then (s, sdoState) else if mapFormed s q then put s (K.HM_STATE q) 2 else (s, sdoRange)
  else if v = 0 then (if mapInUse s q then (s, sdoState) else put (unhome s q) (K.HM_STATE q) 0)
  else (s, sdoRange)

/-- Both copies hold the unmapped entry throughout, and the map is on (R79). -/
def hmInitDone (s : State) (q : Nat) : State :=
  if reg s (K.HM_STATE q) ≠ 2 then s
  else
    let n := reg s (K.HM_NAMES q)
    let a := reg s (K.HM_COPY_A q) / 8
    let b := reg s (K.HM_COPY_B q) / 8
    let w := smapEraseRun (smapEraseRun s.homes.words a (a + n)) b (b + n)
    setReg { unhome s q with homes := { (unhome s q).homes with words := w, inits := s.homes.inits ++ [(a, a + n), (b, b + n)] } } (K.HM_STATE q) 1

/-- The 8-byte word of a home-map copy at MP address 8w. -/
def mapWord (s : State) (w : Nat) : Nat :=
  match smapGet s.homes.words w with
  | some v => v
  | none => if s.homes.inits.any (fun r => decide (r.1 ≤ w ∧ w < r.2)) then 3 else leAt (peekLine s.mem (mpAddr (w / 8 * 64))).bytes (w % 8 * 8) 8

/-- Read the map line of entry `i` from copy A, or from copy B where A's is unreadable (R80): the copy read, where one is. -/
def adoptLine (s : State) (q i : Nat) : State × Option Nat :=
  match readMapLine s (reg s (K.HM_COPY_A q)) i with
  | (s, none) => (s, some (reg s (K.HM_COPY_A q)))
  | (s, some _) =>
    match readMapLine s (reg s (K.HM_COPY_B q)) i with
    | (s, none) => (s, some (reg s (K.HM_COPY_B q)))
    | (s, some _) => (s, none)

/-- Scan the entries from number `i` on, a map line at a time: the entries adopted, or none where a yard home conflicts (R500). -/
def adoptScan (q : Nat) : Nat → Nat → State → List (Nat × Nat) → State × Option (List (Nat × Nat))
  | 0, _, s, acc => (s, some acc)
  | fuel + 1, i, s, acc =>
    let n := reg s (K.HM_NAMES q)
    if n ≤ i then (s, some acc)
    else
      let r := adoptLine s q i
      let got := match r.2 with
        | some c => (List.range (min 8 (n - i))).map (fun j => (reg s (K.HM_FIRST q) + i + j, mapWord r.1 (c / 8 + i + j)))
        | none => []
      let add := fun (acc : Option (List (Nat × Nat))) (e : Nat × Nat) => match acc with
        | none => none
        | some l => match locOfEntry e.2 with
          | .yard k => if homePool s ≤ k ∨ (usedSlots s).contains k = true ∨ (l.any (fun x => decide (locOfEntry x.2 = .yard k))) = true then none else some (l ++ [e])
          | .none => some l
          | _ => some (l ++ [e])
      match got.foldl add (some acc) with
      | none => (r.1, none)
      | some acc => adoptScan q fuel (i + 8) r.1 acc

/-- A write of HM_ADOPT (R500): the map is on as its copies stand, its yard homes kept and zero-filled. -/
def adoptWrite (s : State) (q v : Nat) : State × Nat :=
  if v ≠ 1 ∨ reg s (K.HM_STATE q) ≠ 0 ∨ mapFormed s q = false then (s, sdoRange)
  else
    match adoptScan q (reg s (K.HM_NAMES q) / 8 + 1) 0 s [] with
    | (_, none) => (s, sdoState)
    | (t, some l) =>
      let slots := l.filterMap (fun e => match locOfEntry e.2 with | .yard k => some k | _ => none)
      let t := slots.foldl (fun t k => writeSlot t k (zeroTile 0) (arrivalWho s q)) t
      let ent := l.foldl (fun m e => smapPut m (q * 2 ^ 48 + e.1) e.2) t.homes.entries
      (setRegs { t with homes := { t.homes with entries := ent } } [(K.HM_STATE q, 1), (K.HM_ADOPT_ZEROED q, slots.length)], 0)

/-- Every MP address of a run of n tiles stays below its port's tile limit (R86). -/
def physOk (s : State) (a n : Nat) : Bool :=
  decide (n = 0 ∨ a + (n - 1) * 4096 ≤ 0xFFFFFFFFF000) && (List.range 16).all (fun p =>
    let lo := max a (p * 2 ^ 44)
    let hi := min (a + n * 4096) ((p + 1) * 2 ^ 44)
    decide (hi ≤ lo) || decide ((hi - 1 - p * 2 ^ 44) / 4096 < reg s (K.MP_TILE_LIMIT p)))

/-- A write of WB_SLOTS (R71, R86). -/
def wbSlotsWrite (s : State) (q v : Nat) : State × Nat :=
  let t := setReg s (K.WB_SLOTS q) v
  let first := reg s (K.WB_FIRST q)
  let n := reg s (K.WB_NAMES q)
  if poolCuts s t then (s, sdoState)
  else if v % 16 ≠ 0 ∨ (v ≠ 0 ∧ (rangeOk first n = false ∨ physOk s (reg s (K.WB_PHYS q)) n = false ∨
      overlaps first n (reg s (K.HM_FIRST q)) (reg s (K.HM_NAMES q)) = true ∨ homePool t < 4096)) then (s, sdoRange)
  else (dropMoved s t, 0)

/-- A write of a hod region entry (R117). -/
def hodRegionWrite (s : State) (k v : Nat) : State × Nat :=
  let t := setReg s k v
  let o := reg t K.HOD_MP_OFFSET
  if s.hod ≠ [] then (s, sdoState)
  else if o % 64 ≠ 0 ∨ (hodPorts t).any (fun p => decide (reg t (K.MP_TILE_LIMIT p) < o + 64 * reg t K.HOD_MP_SEGS)) = true then (s, sdoRange)
  else (t, 0)

/-- A write of a digest log entry (R133). -/
def logWrite (s : State) (sub v : Nat) : State × Nat :=
  let k := 0x2402 * 256 + sub
  let on := decide (reg s K.LOG_STATE = 1)
  if sub = 4 then put s k (v % 2 ^ 32)
  else if sub = 6 then (if on then (s, sdoState) else putRange s k v 0 15)
  else if sub = 5 then
    let n := reg s K.LOG_SIZE
    if v = 1 then
      if on || !yardHomed s (reg s K.LOG_PARTITION) (reg s K.LOG_BASE % 2 ^ 48) (ceilDiv (min n 65536) 128) then (s, sdoState)
      else if !(isPow2 n && decide (128 ≤ n ∧ n ≤ 65536)) then (s, sdoRange)
      else (setRegs s [(K.LOG_PRODUCER, 0), (K.LOG_CONSUMER, 0), (K.LOG_STATE, 1)], 0)
    else putRange s k v 0 0
  else barred on s (put s k v)

/-- A write of an exchange plan's entry (R145). -/
def planWrite (s : State) (x sub v : Nat) : State × Nat :=
  let k := (0x2510 + x) * 256 + sub
  if sub = 1 then
    let ok := decide (reg s (K.XP_PARTITION x) ≤ 15 ∧ 1 ≤ reg s (K.XP_EXPERTS x) ∧ reg s (K.XP_EXPERTS x) ≤ 4096 ∧ 1 ≤ reg s (K.XP_TOPK x) ∧ reg s (K.XP_TOPK x) ≤ 8 ∧
      reg s (K.XP_ROW_CODE x) ≤ 6 ∧ reg s (K.XP_CAPACITY x) ≤ 16777215 ∧ 1 ≤ reg s (K.XP_DEST_TILES x) ∧ reg s (K.XP_DEST_TILES x) ≤ 2 ^ 24)
    if v = 0 then put s k 0 else if v = 1 ∧ ok = true then put s k 1 else (s, sdoRange)
  else barred (decide (reg s (K.XP_STATE x) = 1)) s (put s k v)

/-- A write of a reduction group's entry (R180). -/
def groupWrite (s : State) (q sub v : Nat) : State × Nat :=
  let k := (0x2710 + q) * 256 + sub
  let n := reg s (K.RG_SIZE q)
  let ok := decide (2 ≤ n ∧ n ≤ 4096 ∧ reg s (K.RG_RANK q) < n) && yardHomed s q (reg s (K.RG_TABLE q) % 2 ^ 48) (ceilDiv (min n 4096) 512) &&
    (List.range (min n 4096)).all (fun r => decide (r = reg s (K.RG_RANK q)) || (rankWindow s q r).isSome)
  barred (jobAttached s q) s (if sub = 1 then (if v = 0 ∨ (v = 1 ∧ ok = true) then put s k v else (s, sdoRange)) else put s k v)

/-- The check of R232 or R260 that a wythe map fails, and its abort code. -/
def wytheRefused (s : State) (q : Nat) : Option (Nat × Nat) :=
  let on := fun k => decide (reg s k = 1 ∨ reg s k = 2)
  let n := wyN s q
  let courses := codedCourses s q
  let headers := reg s (K.HEADER_FIRST q) % 2 ^ 48
  let table := reg s (K.MEMBER_TABLE q) % 2 ^ 48
  if !(on K.TRW_MODE && on K.MIX_MODE && on K.RPT_MODE) then some (1, sdoState)
  else if !shapeFormed (wyK s q) (wyM s q) (ownRank s q) (reg s (K.BOND_SHIFT q)) then some (2, sdoRange)
  else if !tableValid s q table n (fun _ => false) then some (3, sdoRange)
  else if !tableNodes s q table n (ownRank s q) (fun _ => false) then some (4, sdoControl)
  else if !codedFormed s q (codedFirst s q) courses then some (5, sdoRange)
  else if !headersFormed s q (codedFirst s q) courses headers then some (6, sdoRange)
  else if !gradFormed s q (codedFirst s q) courses headers (gradFirst s q) (gradCourses s q) (reg s (K.GHEADER_FIRST q) % 2 ^ 48) (reg s (K.LEDGER_FIRST q) % 2 ^ 48)
    then some (7, sdoRange)
  else none

/-- A write of WYTHE_STATE (R232, R233, R260). -/
def wytheWrite (s : State) (q v : Nat) : State × Nat :=
  if v = 1 then
    if reg s (K.WYTHE_STATE q) = 1 then (s, sdoState)
    else
      match wytheRefused s q with
      | some (c, code) => (setReg s (K.WYTHE_REFUSED q) c, code)
      | none => if !working s then (s, sdoState) else (noteNodes (setRegs s [(K.WYTHE_STATE q, 1), (K.WYTHE_REFUSED q, 0)]) q, 0)
  else if v = 0 then barred (decide (reg s (K.JOB_STATE q) = 2 ∨ reg s (K.JOB_STATE q) = 4)) s (put s (K.WYTHE_STATE q) 0)
  else (s, sdoRange)

/-- A write of WIN_STATE (R345). DESIGN CHOICE: log entry 96. -/
def winWrite (s : State) (q v : Nat) : State × Nat :=
  if v = 1 ∧ (slotOf s q (reg s (K.WIN_TABLE q) % 2 ^ 48)).isNone = true then (s, sdoState) else putRange s (K.WIN_STATE q) v 0 1

/-- A write of BG_STATE (R337, R388). -/
def barrierWrite (s : State) (q v : Nat) : State × Nat :=
  let n := reg s (K.BG_SIZE q)
  let ok := decide (1 ≤ n ∧ n ≤ 65536) && yardHomed s q (reg s (K.BG_TABLE q) % 2 ^ 48) (ceilDiv (min n 65536) 1024) && decide (reg s (K.BG_POSITION q) < n) &&
    decide (positionNode s q (reg s (K.BG_POSITION q)) = some (reg s K.FP_NODE_ID))
  barred (jobAttached s q) s (if v = 0 ∨ (v = 1 ∧ ok = true) then put s (K.BG_STATE q) v else (s, sdoRange))

/-- A write of FP_ATOMIC (R329): sent at once, or held until this block's earlier stores are answered (R328). DEDUCED: log entry 84. -/
def atomicWrite (s : State) (b : List Byte) : State × Nat :=
  let w0 := leAt b 0 8
  let q := w0 % 16
  let op := bits w0 14 12
  let x := windowOf s q (bits w0 11 4)
  let o := leAt b 8 8
  if s.fabric.pendingAtomic || (decide (op = 5) && decide (reg s (K.DET_POLICY q) = 1)) then (s, sdoState)
  else if 2 ^ 15 ≤ w0 ∨ 5 < op ∨ 2 ^ 48 ≤ o then (s, sdoRange)
  else if !windowAllows s q x x.at_ (o / 4096) then (windowRefused s, sdoAccess)
  else
    let p : Packet := { pkt0 with level := reg s (K.FP_LEVEL q), type := 0x04, partition := x.part, dst := x.node, address := (x.base * 4096 + o) % 2 ^ 48,
                                  w4 := BitVec.ofNat 64 (leAt b 16 8), w5 := BitVec.ofNat 64 (leAt b 24 8), w6 := BitVec.ofNat 64 op }
    let s := if op = 5 then bump s K.VAR_RUN 1 else s
    (sendHeldAtomic { s with fabric := { s.fabric with heldAtomic := some p, pendingAtomic := true } }, 0)

/-- A write of an entry of the flip mask (R414). -/
def flipStateWrite (s : State) (v : Nat) : State × Nat :=
  let t := reg s K.FLIP_TARGET
  if v = 0 then put s K.FLIP_STATE 0
  else if v = 1 then
    if reg s K.FLIP_STATE = 1 then (s, sdoState)
    else if allZero (strN s K.FLIP_MASK 68) ∨ 2 ^ 16 ≤ t ∨ (t.testBit 9 = true ∧ 15 < bits t 8 0) then (s, sdoRange)
    else put s K.FLIP_STATE 1
  else (s, sdoRange)

/-- A write of EV_CONSUMER (R395, R412). -/
def evConsumerWrite (s : State) (v : Nat) : State × Nat :=
  let c := reg s K.EV_CONSUMER
  if (reg s K.EV_PRODUCER + 2 ^ 32 - c) % 2 ^ 32 < (v + 2 ^ 32 - c) % 2 ^ 32 then (s, sdoRange) else put s K.EV_CONSUMER v

/-- A write of SAF_TEST (R407, R412). -/
def safTestWrite (s : State) (v : Nat) : State × Nat :=
  if anyJob s then (s, sdoState)
  else if v ≠ 0xA5 then (s, sdoRange)
  else (safeFault (setReg s K.SAF_TEST v) 7 (nodeWord stSAF 0 true), 0)

/-- The default MAC address of a port (R447). -/
def defaultMac (p : MgPort) : Nat := 0x0A * 2 ^ 40 + serial * 2 ^ 8 + portNo p

/-- The MAC address of a port: the one written, or the default. -/
def macOf (s : State) (p : MgPort) : Nat :=
  match smapGet s.strs (match p with | .mga => K.DMP_MAC_A | .mgb => K.DMP_MAC_B) with
  | some b => leNat b
  | none => defaultMac p

/-- A write of a DMP address or of the Ethertype (R447). -/
def dmpWrite (s : State) (sub v : Nat) : State × Nat :=
  let k := 0x1200 * 256 + sub
  let bad := decide (2 ^ 48 ≤ v) || v.testBit 40
  if sub = 1 then (if v < 0x600 ∨ [0x0800, 0x0806, 0x86DD, 0x8100, 0x88A8].contains v = true then (s, sdoRange) else put s k v)
  else if sub = 2 ∨ sub = 3 then
    let other := macOf s (if sub = 2 then MgPort.mgb else MgPort.mga)
    if bad || decide (v = other) then (s, sdoRange) else (setStr s k (natLe 8 v), 0)
  else if sub = 4 ∨ sub = 5 then (if bad then (s, sdoRange) else put s k v)
  else put s k v

/-- A write of FW_IMAGE: the image lies in the mason's buffer (R453). -/
def imageWrite (s : State) (b : List Byte) : State × Nat :=
  if !s.mason.bare || decide (reg s K.FW_STATUS = 2) || decide (reg s K.SAFE_STATE = 2) then (s, sdoState)
  else (setRegs { s with mason := { s.mason with image := b } } [(K.FW_STATUS, 1), (K.FW_REFUSED, 0)], 0)

/-- A write of FW_CONTROL: 1 starts the checks (R453, R490 step 5). -/
def controlWrite (s : State) (v : Nat) : State × Nat :=
  if !s.mason.bare || decide (reg s K.FW_STATUS = 2) || decide (reg s K.SAFE_STATE = 2) then (s, sdoState)
  else if v ≠ 1 then (s, sdoRange)
  else (setRegs s [(K.FW_STATUS, 2), (K.START_STAGE, 3)], 0)

end Sys2Proof.Machine
end

