-- ==== Sys2Proof/Machine/Dict.lean ====
section
/-! DEFINITION. The object dictionary (R436-R441, R451, R503): what each state serves, reading an entry, writing one, and the commands that
are writes of one entry. -/
namespace Sys2Proof.Machine

/-- The dictionary answers at all: the boot ROM or the firmware runs (R451, R490), or the block is in the safe state (R411); and for the window EP is out of reset (R360). -/
def dictUp (s : State) (path : Path) : Bool :=
  (decide (2 ≤ reg s K.START_STAGE) || s.mason.diag || decide (reg s K.SAFE_STATE = 2)) && (decide (path = .dmp) || (reg s K.ALIGN_STATUS).testBit 0)

/-- What the block's state serves (R404, R451). -/
def serves (s : State) (path : Path) (write : Bool) (idx sub : Nat) : Bool :=
  let identity := decide (0x1000 ≤ idx ∧ idx ≤ 0x1FFF)
  let errors := decide (0x6000 ≤ idx ∧ idx ≤ 0x6FFF)
  if s.mason.diag then decide (path = .dmp) && !write && (identity || errors)
  else if s.mason.bare then identity || (!write && (errors || decide (0x9000 ≤ idx ∧ idx ≤ 0x9FFF) || decide (idx = 0x2E03 ∧ sub = 0)))
  else if reg s K.SAFE_STATE = 2 then decide (path = .dmp) || !write
  else true

/-- One line of the event ring as its 16 bytes (R396). -/
def eventBytes (e : Nat × Nat) : List Byte := natLe 8 e.1 ++ natLe 8 e.2

/-- EV_READ: up to 64 entries from EV_CONSUMER (R412). -/
def eventRead (s : State) : List Byte :=
  (List.range (min 64 ((reg s K.EV_PRODUCER + 2 ^ 32 - reg s K.EV_CONSUMER) % 2 ^ 32))).flatMap (fun i =>
    match smapGet s.safety.ring ((reg s K.EV_CONSUMER + i) % 1024) with
    | some e => eventBytes e
    | none => [])

/-- Tiles homed in a tier, over all partitions (R93). -/
def homedTiles (s : State) (tier : Nat) : Nat := (s.homes.entries.filter (fun e => decide (tierOfLoc (locOfEntry e.2) = tier))).length

/-- A stack's entries (R117). -/
def hodEntry (s : State) (k sub : Nat) : Nat :=
  match hodStack s k with
  | none => if sub = 0 then 5 else 0
  | some h =>
    if sub = 0 then 5 else if sub = 1 then (if h.draining then 2 else 1) else if sub = 2 then h.part
    else if sub = 3 then h.recs.length else if sub = 4 then yardCount h else h.segs.length - yardCount h

/-- A trough layer's entries (R177). -/
def layerEntry (s : State) (k sub : Nat) : Nat :=
  match s.layers.find? (fun l => decide (l.num = k)) with
  | none => if sub = 0 then 5 else if sub = 5 then nullName else 0
  | some l =>
    if sub = 0 then 5 else if sub = 1 then l.state else if sub = 2 then l.part else if sub = 3 then l.taken else if sub = 4 then l.slots else l.first

/-- The number an entry of a fixed-size type reads: the register, or what the block computes for it. -/
def numberOf (s : State) (idx sub : Nat) : Nat :=
  let k := idx * 256 + sub
  if k = K.SERIAL then serial
  else if k = K.DMP_MAC_A then macOf s .mga
  else if k = K.DMP_MAC_B then macOf s .mgb
  else if k = K.DMP_LINK then b2n s.pins.mga + 2 * b2n s.pins.mgb
  else if k = K.STR_IN_FLIGHT then inFlight s
  else if k = K.SST_HOME_TILES then homePool s
  else if k = K.SST_HOME_FREE then homePool s - (usedSlots s).length
  else if idx = 0x2204 ∧ sub ≠ 0 then homedTiles s (sub - 1)
  else if 0x2220 ≤ idx ∧ idx < 0x2230 ∧ sub = 1 then b2n (decide (reg s k = 1) && (decide (reg s K.ALIGN_DONE = 0) || (reg s K.ALIGN_STATUS).testBit (idx - 0x2220 + 1)))
  else if k = K.HOD_YARD_SEGS then hodYardSegs s
  else if k = K.HOD_YARD_FREE then hodYardSegs s - (yardSegsUsed s).length
  else if k = K.HOD_MP_FREE then hodRegionSegs s - (regionSegsUsed s).length
  else if 0x2310 ≤ idx ∧ idx < 0x2330 then hodEntry s (idx - 0x2310) sub
  else if k = K.TRG_FREE_TILES then reg s K.SST_TROUGH_TILES - (s.layers.map Layer.slots).sum
  else if k = K.TRG_LAYERS_OPEN then s.layers.length
  else if 0x2610 ≤ idx ∧ idx < 0x2650 then layerEntry s (idx - 0x2610) sub
  else if k = K.SCR_LAP_S then (upNs s - s.scrub.lapStart) / 1000000000
  else if k = K.SCR_PROGRESS then s.scrub.pos * 1000 / max 1 (lapLines s)
  else if k = K.FP_TAGS_FREE then 16384 - s.fabric.reqs.length
  else if k = K.FP_LINK then b2n s.pins.fpUp + 2 * b2n s.pins.fpRetry
  else if k = K.MP_REFRESH_NOW then s.pins.refresh
  else reg s k

/-- A string or a domain entry's bytes. -/
def stringOf (s : State) (r : DRow) (idx sub : Nat) : List Byte :=
  let k := idx * 256 + sub
  if k = K.DEVICE_NAME then ascii "Vortan VS2"
  else if k = K.HW_VERSION then ascii "2.4"
  else if idx = 0x1F60 then tierBytes (sub - 1)
  else if k = K.TB_NOW then tbBytes s.time.tb
  else if k = K.PTP_EXCHANGE then s.time.exchanges.flatten
  else if k = K.EV_READ then eventRead s
  else if k = K.LT_GRID then histBytes s 0
  else if idx = 0x8011 then histBytes s sub
  else if k = K.LT_BANKS then histBytes s 9
  else if k = K.LIFE_RECORD then lifeRecord s
  else if k = K.FP_ATOMIC then s.fabric.atomicAnswer
  else if r.ty = 0xA then strN s k r.size
  else str s k

/-- A type of fixed size (R437). -/
def fixedType (ty : Nat) : Bool := [0x3, 0x5, 0x6, 0x7, 0x8, 0x1B].contains ty

/-- A number on a path: big-endian in DMP frames, little-endian in the window (R7). -/
def numberBytes (path : Path) (n v : Nat) : List Byte := match path with | .dmp => natBe n v | .ep => natLe n v

/-- The number that a path's bytes spell (R7). -/
def numberIn (path : Path) (b : List Byte) : Nat := match path with | .dmp => beNat b | .ep => leNat b

/-- Read an entry (R9, R438, R451): its bytes, or the abort code. -/
def dictRead (s : State) (path : Path) (idx sub : Nat) : Except Nat (List Byte) :=
  if !serves s path false idx sub then .error sdoState
  else
    match dictRow idx sub with
    | none => .error 0x06020000
    | some r =>
      if r.acc = 3 then .error 0x06010001
      else if fixedType r.ty then .ok (numberBytes path r.size (numberOf s idx sub))
      else .ok (stringOf s r idx sub)

/-- An entry's description (R441). -/
def dictDescribe (s : State) (path : Path) (idx sub : Nat) : Except Nat Nat :=
  if !serves s path false idx sub then .error sdoState
  else
    match dictRow idx sub with
    | none => .error 0x06020000
    | some r => .ok (r.ty + r.acc * 2 ^ 16 + b2n r.dmp * 2 ^ 20 + (if idx * 256 + sub = K.FP_ATOMIC then 0 else r.size) * 2 ^ 32)

/-- A write's length suits the entry (R437, R453). -/
def lengthSuits (r : DRow) (n : Nat) : Bool :=
  if r.ty = 0xF ∧ r.lo = 0x1F50 then decide (576 ≤ n ∧ n ≤ 8388608) else decide (n = r.size)

/-- A range of an entry's values and what locks it: 1 a job of the partition its index numbers, 2 a job of any partition, 3 a job of the
partition its subindex numbers. -/
structure Limit where
  lo : Nat
  n : Nat
  sub : Nat
  m : Nat
  lock : Nat
  least : Nat
  most : Nat
  deriving DecidableEq, Repr

/-- The ranges and locks that the chapters give entries without effects of their own. -/
def limits : List Limit :=
  ([0x2401, 0x2701, 0x2702, 0x2801, 0x2901, 0x2A01, 0x2B01, 0x2C01, 0x2E01, 0x2E02].map (fun i => (⟨i, 1, 0, 1, 2, 0, 2⟩ : Limit))) ++
  [⟨0x2002, 1, 0, 1, 2, 0, 65536⟩, ⟨0x2203, 1, 0, 1, 0, 10, 10000⟩, ⟨0x2220, 16, 1, 1, 0, 0, 1⟩, ⟨0x3004, 1, 1, 16, 3, 0, 1⟩,
   ⟨0x3005, 1, 1, 16, 3, 0, 2 ^ 64 - 1⟩, ⟨0x2305, 1, 0, 1, 0, 0, 8⟩, ⟨0x2602, 1, 0, 1, 0, 16, 65536⟩, ⟨0x2703, 1, 0, 1, 2, 2, 32⟩,
   ⟨0x2704, 1, 0, 1, 0, 10, 600000⟩, ⟨0x2705, 1, 0, 1, 0, 0, 24⟩, ⟨0x2802, 1, 0, 1, 2, 1, 1024⟩, ⟨0x2902, 1, 0, 1, 2, 10, 100000⟩,
   ⟨0x2903, 1, 0, 1, 2, 10, 600000⟩, ⟨0x3006, 1, 0, 1, 2, 2, 16⟩, ⟨0x2A02, 1, 0, 1, 0, 1, 100⟩, ⟨0x2F02, 1, 0, 1, 2, 0, 2 ^ 32 - 1⟩,
   ⟨0x2F03, 1, 0, 1, 0, 2, 10000⟩, ⟨0x2F04, 1, 0, 1, 2, 3, 4⟩, ⟨0x2F08, 1, 0, 1, 0, 100, 10000⟩, ⟨0x2F10, 16, 1, 1, 1, 0, 2 ^ 64 - 1⟩,
   ⟨0x2F10, 16, 3, 1, 1, 0, 2 ^ 64 - 1⟩, ⟨0x2F10, 16, 4, 1, 1, 0, 2 ^ 36⟩, ⟨0x2F30, 16, 2, 1, 1, 1, 65536⟩, ⟨0x2F30, 16, 3, 3, 1, 0, 2 ^ 64 - 1⟩, ⟨0x2D40, 1, 0, 1, 2, 0, 1⟩,
   ⟨0x2D42, 1, 1, 16, 2, 16, 65535⟩, ⟨0x2D44, 1, 1, 16, 3, 0, 1⟩, ⟨0x4001, 1, 0, 1, 2, 0, 100⟩, ⟨0x4002, 1, 1, 4, 2, 65536, 16777216⟩,
   ⟨0x4003, 1, 0, 1, 2, 16, 256⟩, ⟨0x4004, 1, 0, 1, 0, 0, 0⟩, ⟨0x4010, 16, 1, 19, 0, 1, 1000⟩, ⟨0x4010, 16, 33, 19, 0, 65536, 16777216⟩,
   ⟨0x2B02, 1, 0, 1, 0, 60, 604800⟩, ⟨0x2B04, 1, 0, 1, 0, 0, 1000⟩, ⟨0x6011, 1, 0, 1, 0, 0, 10000⟩, ⟨0x5003, 1, 0, 1, 2, 0, 2⟩,
   ⟨0x5004, 1, 0, 1, 2, 100000000, 500000000⟩, ⟨0x5007, 1, 0, 1, 0, 0, 127⟩, ⟨0x5009, 1, 0, 1, 0, 1000, 1000000000⟩, ⟨0x9001, 1, 0, 1, 0, 0, 0x28⟩]

/-- The limit of an entry, where it has one. -/
def limitOf (idx sub : Nat) : Option Limit :=
  limits.find? (fun l => decide (l.lo ≤ idx ∧ idx < l.lo + l.n ∧ l.sub ≤ sub ∧ sub < l.sub + l.m))

/-- A job locks the entry. DEDUCED: log entry 82. -/
def locked (s : State) (l : Limit) (idx sub : Nat) : Bool :=
  if l.lock = 1 then jobAttached s (idx - l.lo) else if l.lock = 2 then anyJob s else if l.lock = 3 then jobAttached s (sub - l.sub) else false

/-- What follows an accepted value (R131, R371, R374, R455, R457). -/
def afterWrite (s : State) (idx sub : Nat) : State :=
  if idx = 0x2E01 ∨ idx = 0x5003 then ptpRestate s
  else if idx = 0x2401 then (if reg s K.PLB_MODE = 1 then s else { s with digests := [] })
  else if idx = 0x5004 then setReg s K.TB_INCREMENT (nominalIncrement s)
  else if 0x4010 ≤ idx ∧ idx < 0x4020 then { s with tokens := smapErase s.tokens (bucketKey 0 (idx - 0x4010) ((sub - 1) % 32)) }
  else if idx = 0x4002 then
    { s with tokens := s.tokens.map (fun e => if e.1 / 65536 = 1 then (e.1, min e.2 (bucketDepth s 1 0 (e.1 % 256))) else e) }
  else s

/-- Write a plain entry within its limit. -/
def limitedWrite (s : State) (idx sub v : Nat) : State × Nat :=
  match limitOf idx sub with
  | none => put s (idx * 256 + sub) v
  | some l =>
    if locked s l idx sub then (s, sdoState)
    else if v < l.least ∨ l.most < v then (s, sdoRange)
    else (afterWrite (setReg s (idx * 256 + sub) v) idx sub, 0)

/-- A write of a queue's entry (R48-R51). -/
def queueWrite (s : State) (q sub v : Nat) : State × Nat :=
  if sub = 3 then (indexWrite s q false v, 0)
  else if sub = 8 then (indexWrite s q true v, 0)
  else if sub = 9 then qStateWrite s q v
  else if sub = 10 then (if v.testBit 0 then put s (K.Q_EVENT q) 0 else (s, 0))
  else barred (decide (reg s (K.Q_STATE q) ≠ 0)) s (put s ((0x2010 + q) * 256 + sub) v)

/-- A write of an entry of a fixed-size type, past its length. -/
def writeNumber (s : State) (idx sub v : Nat) : State × Nat :=
  let k := idx * 256 + sub
  if 0x2010 ≤ idx ∧ idx < 0x2050 then queueWrite s (idx - 0x2010) sub v
  else if 0x2102 ≤ idx ∧ idx ≤ 0x2105 then regionWrite s k v
  else if 0x2220 ≤ idx ∧ idx < 0x2230 ∧ sub ≠ 1 then portWrite s (idx - 0x2220) sub v
  else if 0x2210 ≤ idx ∧ idx < 0x2220 then
    (if sub = 5 then hmWrite s (idx - 0x2210) v else barred (decide (reg s (K.HM_STATE (idx - 0x2210)) ≠ 0)) s (put s k v))
  else if 0x2240 ≤ idx ∧ idx < 0x2250 then adoptWrite s (idx - 0x2240) v
  else if 0x2230 ≤ idx ∧ idx < 0x2240 then
    (if sub = 4 then wbSlotsWrite s (idx - 0x2230) v
     else barred (jobAttached s (idx - 0x2230) || decide (reg s (K.WB_SLOTS (idx - 0x2230)) ≠ 0)) s (put s k v))
  else if 0x2302 ≤ idx ∧ idx ≤ 0x2304 then hodRegionWrite s k v
  else if idx = 0x2402 then logWrite s sub v
  else if 0x2510 ≤ idx ∧ idx < 0x2520 then planWrite s (idx - 0x2510) sub v
  else if 0x2710 ≤ idx ∧ idx < 0x2720 then groupWrite s (idx - 0x2710) sub v
  else if 0x3010 ≤ idx ∧ idx < 0x3020 then
    (if sub = 1 then wytheWrite s (idx - 0x3010) v else barred (decide (reg s (K.WYTHE_STATE (idx - 0x3010)) = 1)) s (put s k v))
  else if 0x3030 ≤ idx ∧ idx < 0x3040 then
    barred (decide (reg s (K.WYTHE_STATE (idx - 0x3030)) = 1) || jobAttached s (idx - 0x3030)) s (put s k v)
  else if 0x3020 ≤ idx ∧ idx < 0x3030 then
    (if v = 1 then jobReady s (idx - 0x3020) else if v = 3 then jobEnd s (idx - 0x3020) else (s, sdoRange))
  else if 0x2F10 ≤ idx ∧ idx < 0x2F20 ∧ sub = 2 then winWrite s (idx - 0x2F10) v
  else if 0x2F30 ≤ idx ∧ idx < 0x2F40 ∧ sub = 1 then barrierWrite s (idx - 0x2F30) v
  else if 0x2F30 ≤ idx ∧ idx < 0x2F40 ∧ sub = 6 then replaceWrite s (idx - 0x2F30) v
  else if k = K.EV_CONSUMER then evConsumerWrite s v
  else if k = K.EV_SEEN then put s k (reg s k - (reg s k &&& v))
  else if k = K.SAF_TEST then safTestWrite s v
  else if k = K.FLIP_STATE then flipStateWrite s v
  else if k = K.FLIP_TARGET then barred (decide (reg s K.FLIP_STATE = 1)) s (put s k v)
  else if idx = 0x1200 then dmpWrite s sub v
  else if k = K.FW_CONTROL then controlWrite s v
  else if k = K.TB_TPPS_SECONDS then put { s with time := { s.time with newSeconds := some (v % 2 ^ 48) } } k v
  else if k = K.LIFE_SHUTDOWN then lifeShutdown s v
  else limitedWrite s idx sub v

/-- A write of a string or a domain entry, past its length. -/
def writeString (s : State) (idx sub : Nat) (b : List Byte) : State × Nat :=
  let k := idx * 256 + sub
  if k = K.FW_IMAGE then imageWrite s b
  else if k = K.TB_SET then tbSetWrite s b
  else if k = K.TB_ADJUST then tbAdjustWrite s b
  else if k = K.LIFE_RECORD then lifeRestore s b
  else if k = K.FP_ATOMIC then atomicWrite s b
  else if k = K.SCR_HOST_RANGE then hostRange s b
  else if k = K.FLIP_MASK then barred (decide (reg s K.FLIP_STATE = 1)) s (setStr s k b, 0)
  else if 0x2F30 ≤ idx ∧ idx < 0x2F40 then bcastWriteStart s (idx - 0x2F30) b
  else if 0x3040 ≤ idx ∧ idx < 0x3050 then memberWrite s (idx - 0x3040) b
  else if 0x3020 ≤ idx ∧ idx < 0x3030 then jobWrite s (idx - 0x3020) b
  else (setStr s k b, 0)

/-- A write whose effect is a station's work: outside the ready state and in the safe state no station works (R411, R490). The entries whose
chapters order their own checks (R232, R292, R493) make this one after them. DESIGN CHOICE: log entry 94. -/
def stationWrite (idx sub : Nat) : Bool :=
  decide (0x2010 ≤ idx ∧ idx < 0x2050 ∧ sub = 9) || decide (0x2210 ≤ idx ∧ idx < 0x2220 ∧ sub = 5) || decide (0x2240 ≤ idx ∧ idx < 0x2250) ||
    decide (0x2230 ≤ idx ∧ idx < 0x2240 ∧ sub = 4) || decide (0x2102 ≤ idx ∧ idx ≤ 0x2105) ||
    decide (0x3020 ≤ idx ∧ idx < 0x3030 ∧ sub ≠ 1) || decide (0x2F30 ≤ idx ∧ idx < 0x2F40 ∧ (sub = 6 ∨ sub = 7)) ||
    decide (idx = 0x2F05 ∨ idx = 0x2B08)

/-- What refuses a request before anything else does: the service and the definition (R9, R451); 0 where nothing does. -/
def entryGate (s : State) (path : Path) (write : Bool) (idx sub : Nat) : Nat :=
  if !serves s path write idx sub then sdoState else if (dictRow idx sub).isNone then 0x06020000 else 0

/-- The refusals of R503 that do not look at the value: service, definition, access and length; 0 where there is none. -/
def writeGate (s : State) (path : Path) (idx sub n : Nat) : Nat :=
  if !serves s path true idx sub then sdoState
  else
    match dictRow idx sub with
    | none => 0x06020000
    | some r => if r.acc = 1 ∨ (path = .ep ∧ r.dmp = true) then 0x06010002 else if lengthSuits r n then 0 else 0x06070010

/-- Write an entry by a path, with the refusals in the order of R503: the state, and the abort code, 0 where it is accepted. -/
def dictWrite (s : State) (path : Path) (idx sub : Nat) (b : List Byte) : State × Nat :=
  if writeGate s path idx sub b.length ≠ 0 then (s, writeGate s path idx sub b.length)
  else
    match dictRow idx sub with
    | none => (s, 0x06020000)
    | some r =>
      if (reg s K.START_STAGE ≠ 5 ∨ reg s K.SAFE_STATE ≠ 1) ∧ stationWrite idx sub = true then (s, sdoState)
      else if fixedType r.ty then writeNumber s idx sub (numberIn path b)
      else writeString s idx sub b

/-- The outcome of one write: the abort code is what the request receives. -/
def writeBy (s : State) (path : Path) (idx sub : Nat) (b : List Byte) : State :=
  if dictUp s path then let r := dictWrite s path idx sub b; { r.1 with sdo := r.2 } else s

/-- The same for a number of n bytes. -/
def writeNum (s : State) (path : Path) (idx sub n v : Nat) : State := writeBy s path idx sub (numberBytes path n v)

/-- DICT_WRITE (R439). -/
def execDictWrite (path : Path) (index sub : Nat) (value : List Byte) (s : State) : Host.Outcome State Fault Refusal :=
  whenAlive s (writeBy s path index sub value)

/-- Q_STATE_ENABLE (R49). -/
def execQStateEnable (path : Path) (q : Nat) (s : State) : Host.Outcome State Fault Refusal := whenAlive s (writeNum s path (0x2010 + q) 9 1 1)

/-- Q_STATE_DISABLE (R50). -/
def execQStateDisable (path : Path) (q : Nat) (s : State) : Host.Outcome State Fault Refusal := whenAlive s (writeNum s path (0x2010 + q) 9 1 0)

/-- HM_STATE_ON (R79). -/
def execHmStateOn (path : Path) (q : Nat) (s : State) : Host.Outcome State Fault Refusal := whenAlive s (writeNum s path (0x2210 + q) 5 1 1)

/-- HM_INIT_DONE (R79). -/
def execHmInitDone (q : Nat) (s : State) : Host.Outcome State Fault Refusal := whenWorking s (hmInitDone s q)

/-- HM_STATE_OFF (R79). -/
def execHmStateOff (path : Path) (q : Nat) (s : State) : Host.Outcome State Fault Refusal := whenAlive s (writeNum s path (0x2210 + q) 5 1 0)

/-- HM_ADOPT (R500). -/
def execHmAdopt (path : Path) (q : Nat) (s : State) : Host.Outcome State Fault Refusal := whenAlive s (writeNum s path (0x2240 + q) 0 1 1)

/-- WYTHE_STATE_ON (R232, R260). -/
def execWytheStateOn (path : Path) (q : Nat) (s : State) : Host.Outcome State Fault Refusal := whenAlive s (writeNum s path (0x3010 + q) 1 1 1)

/-- WYTHE_STATE_OFF (R233). -/
def execWytheStateOff (path : Path) (q : Nat) (s : State) : Host.Outcome State Fault Refusal := whenAlive s (writeNum s path (0x3010 + q) 1 1 0)

/-- MEMBER_CMD (R288-R293). -/
def execMemberCmd (path : Path) (q : Nat) (record : List Byte) (s : State) : Host.Outcome State Fault Refusal :=
  whenAlive s (writeBy s path (0x3040 + q) 1 record)

/-- JOB_START (R493, R494): the record's REJOIN decides. -/
def execJobStart (path : Path) (q : Nat) (record : List Byte) (s : State) : Host.Outcome State Fault Refusal :=
  whenAlive s (writeBy s path (0x3020 + q) 1 record)

/-- JOB_REJOIN (R493, R496): the record's REJOIN decides. -/
def execJobRejoin (path : Path) (q : Nat) (record : List Byte) (s : State) : Host.Outcome State Fault Refusal :=
  whenAlive s (writeBy s path (0x3020 + q) 1 record)

/-- JOB_CONTROL_READY (R494, R496). -/
def execJobControlReady (path : Path) (q : Nat) (s : State) : Host.Outcome State Fault Refusal := whenAlive s (writeNum s path (0x3020 + q) 2 1 1)

/-- JOB_CONTROL_END (R498). -/
def execJobControlEnd (path : Path) (q : Nat) (s : State) : Host.Outcome State Fault Refusal := whenAlive s (writeNum s path (0x3020 + q) 2 1 3)

/-- FW_IMAGE (R453). -/
def execFwImage (path : Path) (image : List Byte) (s : State) : Host.Outcome State Fault Refusal := whenAlive s (writeBy s path 0x1F50 1 image)

/-- FW_CONTROL (R453). -/
def execFwControl (path : Path) (s : State) : Host.Outcome State Fault Refusal := whenAlive s (writeNum s path 0x1F51 1 1 1)

/-- LIFE_RECORD (R469). -/
def execLifeRecord (path : Path) (record : List Byte) (s : State) : Host.Outcome State Fault Refusal := whenAlive s (writeBy s path 0x8100 0 record)

/-- LIFE_SHUTDOWN_PUSH (R468). -/
def execLifeShutdownPush (path : Path) (s : State) : Host.Outcome State Fault Refusal := whenAlive s (writeNum s path 0x8101 0 1 1)

/-- LIFE_SHUTDOWN_MISSING (R469). -/
def execLifeShutdownMissing (path : Path) (s : State) : Host.Outcome State Fault Refusal := whenAlive s (writeNum s path 0x8101 0 1 2)

/-- TB_SET (R457). -/
def execTbSet (path : Path) (value : List Byte) (s : State) : Host.Outcome State Fault Refusal := whenAlive s (writeBy s path 0x5002 0 value)

/-- TB_ADJUST (R461, R462). -/
def execTbAdjust (path : Path) (value : List Byte) (s : State) : Host.Outcome State Fault Refusal := whenAlive s (writeBy s path 0x5010 0 value)

/-- EV_CONSUMER (R395, R412). -/
def execEvConsumer (path : Path) (value : Nat) (s : State) : Host.Outcome State Fault Refusal := whenAlive s (writeNum s path 0x6003 0 4 value)

/-- FP_ATOMIC (R329). -/
def execFpAtomic (path : Path) (record : List Byte) (s : State) : Host.Outcome State Fault Refusal := whenAlive s (writeBy s path 0x2F05 0 record)

/-- BG_REPLACE (R341). -/
def execBgReplace (path : Path) (q value : Nat) (s : State) : Host.Outcome State Fault Refusal := whenAlive s (writeNum s path (0x2F30 + q) 6 8 value)

/-- BG_BCAST (R342). -/
def execBgBcast (path : Path) (q : Nat) (record : List Byte) (s : State) : Host.Outcome State Fault Refusal := whenAlive s (writeBy s path (0x2F30 + q) 7 record)

/-- SCR_HOST_RANGE (R393). -/
def execScrHostRange (path : Path) (record : List Byte) (s : State) : Host.Outcome State Fault Refusal := whenAlive s (writeBy s path 0x2B08 0 record)

/-- SAF_TEST (R407, R412). -/
def execSafTest (path : Path) (value : Nat) (s : State) : Host.Outcome State Fault Refusal := whenAlive s (writeNum s path 0x6010 6 1 value)

/-- FLIP_STATE_ARM (R414). -/
def execFlipStateArm (path : Path) (s : State) : Host.Outcome State Fault Refusal := whenAlive s (writeNum s path 0xA010 3 1 1)

/-- FLIP_STATE_DISARM (R414). -/
def execFlipStateDisarm (path : Path) (s : State) : Host.Outcome State Fault Refusal := whenAlive s (writeNum s path 0xA010 3 1 0)

end Sys2Proof.Machine
end

