-- ==== Sys2Proof/Machine/Boot.lean ====
section
/-! DEFINITION. Power, RESETn, alignment of the clock domains and the start-up sequence (R357-R360, R453, R476, R479, R490, R491). -/
namespace Sys2Proof.Machine

/-- The cells and marks of the stacks, which the block's supplies and RESETn do not touch (R476, R501); the yard keeps nothing. -/
def stackCells (m : Memory) : List Host.Cell := m.cells.filter (fun e => decide (stackBase ≤ e.1))
def stackMarks (m : Memory) : SMap Word32 := m.marks.filter (fun e => decide (stackBase ≤ e.1 * 64))

/-- The memory with every yard line zero and correctly encoded (R491). -/
def yardErased (m : Memory) : Memory := { m with cells := stackCells m, marks := stackMarks m }

/-- The pins at reset: the outputs of R479; the inputs and the test access port stay as they are driven. -/
def resetPins (p : Pins) : Pins := { p with resetn := false, safeT := true, safeC := false, instrument := [] }

/-- RESETn is low: everything stands at reset but what lies outside the block (the queue, the driven inputs, the stacks), the peer table
and the link delays, which last until power-off (R344), and the model's draw counter. DEDUCED: log entry 66. -/
def resetState (s : State) : State :=
  { State.reset with
    pending := s.pending, pins := resetPins s.pins, mem := yardErased s.mem, fresh := s.fresh,
    homes := { State.reset.homes with words := s.homes.words, inits := s.homes.inits },
    fabric := { State.reset.fabric with peers := s.fabric.peers },
    barriers := { State.reset.barriers with delays := s.barriers.delays } }

/-- The supplies come up with RESETn low: nothing is kept, and the stacks hold what they powered up with (R490, R504). -/
def powerState (s : State) : State :=
  { State.reset with
    pending := s.pending, fresh := s.fresh, mem := { cells := [], marks := [], gen := s.mem.gen + 1 },
    pins := { resetPins s.pins with powered := true, tap := .idcode, cells := 0, tapOut := 0 } }

/-- RESETn goes high (R358, R490 step 1): the nanoseconds since release count from zero (R456), and LT_STARTS counts. -/
def releaseState (s : State) : State :=
  lifeBump (setReg { s with pins := { s.pins with resetn := true }, time := { s.time with up := 0 } } K.START_STAGE 1) (ltKey 2) 1

/-- The nineteen aligned domains (R357): 0 EP, 1 to 16 MP0 to MP15, 17 FP, 18 TMB. -/
def domains : List Nat := List.range 19

/-- Domain d's count in a period. -/
def countIn (p : List Nat) (d : Nat) : Nat := (p[d]?).getD 0

/-- N_d where a domain gave the same count over 16 consecutive periods (R358 step 4): the latest run's. -/
def steadyCount (periods : List (List Nat)) (d : Nat) : Option Nat :=
  match (List.range (periods.length - 15)).find? (fun i =>
    let w := ((periods.drop i).take 16).map (fun p => countIn p d)
    decide (w.headD 0 ≠ 0) && w.all (fun n => decide (n = w.headD 0))) with
  | some i => some (countIn ((periods[i]?).getD []) d)
  | none => none

/-- The fastest count lies within the range of R357. -/
def fastestOk (l : List (Option Nat)) : Bool :=
  let n := (l.filterMap id).foldl max 0
  decide (64 ≤ n) && decide (n ≤ 65536)

/-- The counts of the domains that have passed step 4: none passes while the fastest lies outside 64 to 65,536 (R358). -/
def passedCounts (periods : List (List Nat)) : List (Option Nat) :=
  if fastestOk (domains.map (steadyCount periods)) then domains.map (steadyCount periods) else domains.map (fun _ => none)

/-- The mask of the domains for which a list holds `true`. -/
def domainMask (l : List Bool) : Nat := (List.range l.length).foldl (fun a d => a + b2n ((l[d]?).getD false) * 2 ^ d) 0

/-- Domains failed or drifted (R360): the event and the lifetime counter. -/
def alignFail (s : State) (mask : Nat) : State :=
  if mask = 0 then s else raise (lifeBump s (ltKey 13) (popCount 19 mask)) 0x0E stMSN 0 none true mask

/-- Steps 5 and 6 of alignment (R358): counters zero, ALIGN_COUNTS, ALIGN_STATUS, ALIGN_DONE; and the boot nonce (R344, R360). DEDUCED: log entry 64. -/
def alignComplete (s : State) : State :=
  let l := passedCounts s.align.periods
  let s := setRegs s ((domains.map (fun d => (K.ALIGN_COUNTS d, (((l[d]?).getD none).getD 0)))) ++
    [(K.ALIGN_STATUS, domainMask (l.map Option.isSome)), (K.ALIGN_DONE, 1),
     (K.FP_BOOT_NONCE, crc32c (tierBytes 0 ++ natLe 4 (nowNs s % 1000000000)))])
  alignFail { s with align := { periods := [], counters := domains.map (fun _ => 0), gaveUp := false } } (domainMask (l.map Option.isNone))

/-- An ALIGN edge before alignment is done (R358): its period is counted, and where every domain had passed, the sequence completes. The
timebase starts when TMB passes (R455). Where the others are given up, the sequence completes without them. -/
def alignCount (s : State) (counts : List Nat) : State :=
  if (passedCounts s.align.periods).all Option.isSome || s.align.gaveUp then alignComplete s
  else
    let ps := (if s.align.periods = [] then [] else counts) :: s.align.periods
    let s := { s with align := { s.align with periods := ps } }
    if s.time.running = false ∧ (((passedCounts ps)[18]?).getD none).isSome = true then { s with time := { s.time with running := true, tb := 0 } } else s

/-- An ALIGN edge after alignment (R360): off a multiple of N_d it is drift. -/
def alignWatch (s : State) (counts : List Nat) : State :=
  let cs := domains.map (fun d => countIn s.align.counters d + countIn counts d)
  let s := { s with align := { s.align with counters := cs } }
  let off := domainMask (domains.map (fun d => (reg s K.ALIGN_STATUS).testBit d && decide (countIn cs d % max 1 (reg s (K.ALIGN_COUNTS d)) ≠ 0)))
  if off = 0 then s else alignFail (bump s K.ALIGN_DRIFTS 1) off

/-- ALIGN_EDGE (R358, R360). DEDUCED: log entry 63. -/
def alignEdge (s : State) (counts : List Nat) : State := if reg s K.ALIGN_DONE = 1 then alignWatch s counts else alignCount s counts

/-- The domains that have not passed 1 ms after release are given up (R358): steps 5 and 6 follow at the next ALIGN edge for the rest, and at
once where no domain has passed. The timebase of a failed TMB does not count (R360). DEDUCED: log entry 63. -/
def alignTimeout (s : State) : State :=
  if reg s K.ALIGN_DONE = 1 ∨ upNs s < 1000000 then s
  else if (passedCounts s.align.periods).any Option.isSome then { s with align := { s.align with gaveUp := true } }
  else alignComplete s

/-- The boot ROM serves the dictionary (R490 steps 3 and 4). DEDUCED: log entry 65. -/
def masonBoot (s : State) : State :=
  if reg s K.ALIGN_DONE = 1 ∧ reg s K.START_STAGE = 1 ∧ reg s K.SAFE_STATE = 0 then
    setRegs { s with mason := { s.mason with bare := true } } [(K.START_STAGE, 2), (K.ID_STATUS, idStatus)]
  else s

/-- The check of R453 that an image fails, 0 where it passes all. -/
def imageRefused (image : List Byte) (revision : Nat) (uncorrectable : Bool) : Nat :=
  let body := leAt image 12 4
  if ¬ (image.length = 512 + body ∧ body % 64 = 0 ∧ body ≤ 8388096 ∧ leAt image 0 4 = 0x32465356 ∧ leAt image 4 2 = 1 ∧ leAt image 6 2 = 0 ∧
      allZero (bytesAt image 240 272) = true) then 1
  else if leAt image 8 4 ≠ revision then 2
  else if Config.keyAccepted (bytesAt image 48 96) = false then 3
  else if Config.signatureOk image = false then 4
  else if uncorrectable then 5
  else 0

/-- A zero-padded string without its padding. -/
def unpadded (b : List Byte) : List Byte := (b.reverse.dropWhile (fun x => decide (x = 0))).reverse

/-- The checks of an image are done (R453, R490 step 5). DEDUCED: log entry 61. -/
def imageChecked (s : State) (uncorrectable : Bool) : State :=
  if s.mason.bare = true ∧ reg s K.FW_STATUS = 2 ∧ reg s K.SAFE_STATE = 0 then
    let n := imageRefused s.mason.image (reg s K.REVISION) uncorrectable
    if n = 0 then
      let s := setStr { s with mason := { s.mason with bare := false } } K.FW_VERSION (unpadded (bytesAt s.mason.image 16 32))
      lifeBump (setRegs s [(K.FW_STATUS, 3), (K.FW_REFUSED, 0), (K.START_STAGE, 4)]) (ltKey 3) 1
    else
      lifeBump (setRegs { s with mason := { s.mason with image := [] } } [(K.FW_STATUS, 4), (K.FW_REFUSED, n), (K.START_STAGE, 2)]) (ltKey 4) 1
  else s

/-- An entry that step 7 of R490 leaves as it is: the identity area, what the block reports of itself, and EV_SEEN; the run-time event
counters are not among them (R398). -/
def keptAtReady (k : Nat) : Bool :=
  let idx := k / 256
  decide (0x1000 ≤ idx ∧ idx ≤ 0x1FFF) || decide (k = K.EV_SEEN) ||
    (!decide (0x7000 ≤ idx ∧ idx ≤ 0x7FFF) && (match dictRow idx (k % 256) with | some r => decide (r.acc = 1) | none => false))

/-- The self-test has passed: the yard is zero, every entry takes its default, and the block is ready (R490 steps 6 and 7, R491). -/
def becomeReady (s : State) : State :=
  let (s, n) := draw s
  let t := stamp s
  let passed := (List.range 160).filter (fun g => !(lgOut s).testBit g)
  let s := { s with regs := s.regs.filter (fun e => keptAtReady e.1), strs := s.strs.filter (fun e => keptAtReady e.1), mem := yardErased s.mem,
                    pins := { s.pins with safeT := false, safeC := true },
                    safety := { s.safety with katPass := passed.map (fun g => (g, t)), lanes := Config.laneFaults n },
                    scrub := { s.scrub with pos := 0, lapStart := upNs s, limitHits := 0, ranges := [] } }
  ptpRestate (setRegs s [(K.SAFE_STATE, 1), (K.START_STAGE, 5)])

/-- The self-test is over (R491): the lane groups that failed it, and the bank group of a yard line that failed the march. DEDUCED: log entry 67. -/
def selfTestDone (s : State) (groups : List Nat) (bank : Option Nat) : State :=
  if reg s K.START_STAGE = 4 ∧ reg s K.SAFE_STATE = 0 then
    let s := groups.foldl (fun s g => laneGroupOut s g 0) s
    let s := match bank with
      | some b => safeFault s 2 (nodeWord stSST b false)
      | none => s
    if reg s K.SAFE_STATE = 0 then becomeReady s else setReg { s with mem := yardErased s.mem } K.START_STAGE 6
  else s

/-- POWER_UP (R490, R504). -/
def execPowerUp (s : State) : Host.Outcome State Fault Refusal := .next (powerState s)

/-- RESETN_ASSERT (R410, R476, R479). -/
def execResetnAssert (s : State) : Host.Outcome State Fault Refusal := .next (if s.pins.powered then resetState s else s)

/-- RESETN_RELEASE (R358, R490): from RESETn low with the supplies present. -/
def execResetnRelease (s : State) : Host.Outcome State Fault Refusal :=
  .next (if s.pins.powered && !s.pins.resetn then releaseState s else s)

/-- ALIGN_EDGE (R358, R360). -/
def execAlignEdge (counts : List Nat) (s : State) : Host.Outcome State Fault Refusal := whenAlive s (alignEdge s counts)

/-- ALIGN_TIMEOUT (R358, R360). -/
def execAlignTimeout (s : State) : Host.Outcome State Fault Refusal := whenAlive s (alignTimeout s)

/-- MASON_BOOT (R464, R490). -/
def execMasonBoot (s : State) : Host.Outcome State Fault Refusal := whenAlive s (masonBoot s)

/-- FW_CHECK_DONE (R453, R490). -/
def execFwCheckDone (uncorrectable : Bool) (s : State) : Host.Outcome State Fault Refusal := whenAlive s (imageChecked s uncorrectable)

/-- SELF_TEST_DONE (R490, R491). -/
def execSelfTestDone (failedGroups : List Nat) (failedBankGroup : Option Nat) (s : State) : Host.Outcome State Fault Refusal :=
  whenAlive s (selfTestDone s failedGroups failedBankGroup)

end Sys2Proof.Machine
end

