-- ==== Sys2Proof/Machine/Dmp.lean ====
section
/-! DEFINITION. The Dranil Management Protocol (R442-R448) and the engine-port window (R449, R450). -/
namespace Sys2Proof.Machine

/-- The signed 32-bit difference of two sequence numbers (R444). -/
def seqDiff (a b : Nat) : Int := signedOf 32 ((a + 2 ^ 32 - b) % 2 ^ 32)

/-- A frame is one of this block's requests (R442). -/
def frameOk (s : State) (f : DmpFrame) (type : Nat) : Bool :=
  decide (f.ethertype = reg s K.DMP_ETHERTYPE) && decide (f.version = 1) && decide (f.client ≠ 0) && decide (f.data.length ≤ 1024) &&
    (decide (f.dst = macOf s f.port) || (decide (f.dst = 2 ^ 48 - 1) && decide (type = 0x01 ∨ type = 0x05) && decide (0x1000 ≤ f.index ∧ f.index ≤ 0x1FFF)))

/-- A response to a frame. -/
def answerTo (f : DmpFrame) (type size value : Nat) (last : Bool) (data : List Byte) : DmpOut :=
  { port := f.port, dst := f.srcMac, vlan := f.vlan, type := type, client := f.client, seq := f.seq, index := f.index, sub := f.sub, size := size,
    last := last, dup := false, value := value, data := data }

/-- A plain response, and an abort with its code (R443). -/
def okTo (f : DmpFrame) : DmpOut := answerTo f 0x81 0 0 false []
def abortTo (f : DmpFrame) (code : Nat) : DmpOut := answerTo f 0x82 0 code false []

/-- Send a frame. -/
def sendFrame (s : State) (o : DmpOut) : State :=
  let s := { s with mgmt := { s.mgmt with out := s.mgmt.out ++ [o] } }
  if o.type = 0x82 then bump s K.DMP_ABORTS 1 else s

/-- A client's records; none for one not heard from (R445). -/
def clientOf (s : State) (c : Nat) : Client :=
  (s.mgmt.clients.find? (fun x => decide (x.id = c))).getD { id := c, highest := 0, answers := [], xfer := none }

/-- Keep a client's records as those heard from most recently, for 16 clients (R445). -/
def putClient (s : State) (c : Client) : State :=
  { s with mgmt := { s.mgmt with clients := (c :: s.mgmt.clients.filter (fun x => decide (x.id ≠ c.id))).take 16 } }

/-- Set a client's transfer. -/
def setXfer (s : State) (c : Nat) (x : Option Xfer) : State := putClient s { clientOf s c with xfer := x }

/-- Record a number as executed, and the response where there is one (R444). -/
def recordSeq (s : State) (c seq : Nat) (o : Option DmpOut) : State :=
  let x := clientOf s c
  let high := if x.answers = [] ∨ 0 ≤ seqDiff seq x.highest then seq else x.highest
  let as := match o with | some o => (seq, o) :: x.answers | none => x.answers
  putClient s { x with highest := high, answers := as.filter (fun a => decide (seqDiff high a.1 ≤ 64)) }

/-- READ_REQ (R443, R446). DEDUCED: log entry 85. -/
def readFrame (s : State) (f : DmpFrame) : State × DmpOut :=
  match dictRead s .dmp f.index f.sub with
  | .error e => ({ s with sdo := e }, abortTo f e)
  | .ok b =>
    let s := { s with sdo := 0 }
    if b.length = 0 then (s, answerTo f 0x81 0 0 false [])
    else if b.length ≤ 4 then (s, answerTo f 0x81 b.length (beNat b) false [])
    else
      (setXfer s f.client (some { write := false, index := f.index, sub := f.sub, total := b.length, data := b, abandoned := false }),
       answerTo f 0x81 0 b.length false [])

/-- An entry is written by a frame: its response, or none where the write completes later (R440). -/
def writeFrame (s : State) (f : DmpFrame) (b : List Byte) : State × Option DmpOut :=
  let r := dictWrite s .dmp f.index f.sub b
  let s := { r.1 with sdo := r.2 }
  if r.2 ≠ 0 then (s, some (abortTo f r.2))
  else if f.index * 256 + f.sub = K.FP_ATOMIC ∧ s.fabric.pendingAtomic = true then
    ({ s with mgmt := { s.mgmt with waiting := s.mgmt.waiting ++ [(f.seq, f)] } }, none)
  else (s, some (okTo f))

/-- WRITE_INIT (R446): a transfer is open, and the one before it abandoned; of an entry that is not defined or not served it does nothing (R9). -/
def initFrame (s : State) (f : DmpFrame) : State × DmpOut :=
  let e := writeGate s .dmp f.index f.sub f.value
  let s := if entryGate s .dmp true f.index f.sub = 0 then setXfer s f.client none else s
  if e ≠ 0 then ({ s with sdo := e }, abortTo f e)
  else (setXfer { s with sdo := 0 } f.client (some { write := true, index := f.index, sub := f.sub, total := f.value, data := [], abandoned := false }), okTo f)

/-- SEGMENT (R446). -/
def segmentFrame (s : State) (f : DmpFrame) : State × Option DmpOut :=
  let e := entryGate s .dmp true f.index f.sub
  if e ≠ 0 then ({ s with sdo := e }, some (abortTo f e))
  else
  match (clientOf s f.client).xfer with
  | none => ({ s with sdo := 0x05040001 }, some (abortTo f 0x05040001))
  | some x =>
    if x.abandoned then (setXfer { s with sdo := 0x05040000 } f.client none, some (abortTo f 0x05040000))
    else if !x.write || decide (x.index ≠ f.index) || decide (x.sub ≠ f.sub) then ({ s with sdo := 0x05040001 }, some (abortTo f 0x05040001))
    else if f.value ≠ x.data.length then ({ s with sdo := 0x05030000 }, some (abortTo f 0x05030000))
    else
      let d := x.data ++ f.data
      if x.total < d.length ∨ (d.length < x.total ∧ f.last = true) then (setXfer { s with sdo := 0x06070010 } f.client none, some (abortTo f 0x06070010))
      else if d.length = x.total then writeFrame (setXfer s f.client none) f d
      else (setXfer { s with sdo := 0 } f.client (some { x with data := d }), some (okTo f))

/-- SEG_READ (R446). -/
def segReadFrame (s : State) (f : DmpFrame) : State × DmpOut :=
  let e := entryGate s .dmp false f.index f.sub
  if e ≠ 0 then ({ s with sdo := e }, abortTo f e)
  else
  match (clientOf s f.client).xfer with
  | none => ({ s with sdo := 0x05040001 }, abortTo f 0x05040001)
  | some x =>
    if x.abandoned then (setXfer { s with sdo := 0x05040000 } f.client none, abortTo f 0x05040000)
    else if x.write || decide (x.index ≠ f.index) || decide (x.sub ≠ f.sub) then ({ s with sdo := 0x05040001 }, abortTo f 0x05040001)
    else if x.total ≤ f.value then ({ s with sdo := 0x05030000 }, abortTo f 0x05030000)
    else
      let b := (x.data.drop f.value).take 1024
      let last := decide (x.total ≤ f.value + 1024)
      (if last then setXfer { s with sdo := 0 } f.client none else { s with sdo := 0 }, answerTo f 0x84 0 f.value last b)

/-- DESCRIBE (R441): the description as a big-endian value. -/
def describeFrame (s : State) (f : DmpFrame) : State × DmpOut :=
  match dictDescribe s .dmp f.index f.sub with
  | .error e => ({ s with sdo := e }, abortTo f e)
  | .ok v => ({ s with sdo := 0 }, answerTo f 0x81 0 0 false (natBe 8 v))

/-- One request of a type, executed. -/
def executeFrame (s : State) (f : DmpFrame) (type : Nat) : State × Option DmpOut :=
  let one := fun (r : State × DmpOut) => (r.1, some r.2)
  if type = 0x01 then one (readFrame s f)
  else if type = 0x02 then writeFrame s f (natBe f.size f.value)
  else if type = 0x03 then one (initFrame s f)
  else if type = 0x04 then segmentFrame s f
  else if type = 0x05 then one (segReadFrame s f)
  else one (describeFrame s f)

/-- A DMP request arrives (R442-R446): it takes effect once, whichever ports and retries deliver it. -/
def takeFrame (s : State) (f : DmpFrame) (type : Nat) : State :=
  if !dictUp s .dmp then s
  else if !frameOk s f type then bump s K.DMP_DISCARDED 1
  else
    let s := bump s (match f.port with | .mga => K.DMP_RX_A | .mgb => K.DMP_RX_B) 1
    let c := clientOf s f.client
    let s := putClient s c
    match c.answers.find? (fun a => decide (a.1 = f.seq)) with
    | some a => bump (sendFrame s { a.2 with port := f.port, dst := f.srcMac, vlan := f.vlan, dup := true }) K.DMP_DUPLICATES 1
    | none =>
      if c.answers ≠ [] ∧ seqDiff f.seq c.highest ≤ -64 then bump s K.DMP_STALE 1
      else if s.mgmt.waiting.any (fun w => decide (w.1 = f.seq ∧ w.2.client = f.client)) then s
      else
        match executeFrame s f type with
        | (s, some o) => recordSeq (sendFrame s o) f.client f.seq (some o)
        | (s, none) => recordSeq s f.client f.seq none

/-- The window's response block (R449). -/
def windowAnswer (s : State) (status total : Nat) (data : List Byte) (wseq : Nat) : State :=
  bump { s with sdo := status, mgmt := { s.mgmt with answer := { status := status, bytes := data.length, total := total, data := data, wseq := wseq }, busy := none } }
    K.WIN_REQUESTS 1

/-- A submission: discarded while a request is in progress (R450). -/
def submit (s : State) (go : State → State) : State :=
  if !dictUp s .ep then s else if s.mgmt.busy.isSome then bump s K.WIN_OVERRUNS 1 else go s

/-- Set the window's transfer. -/
def setWin (s : State) (x : Option Xfer) : State := { s with mgmt := { s.mgmt with winXfer := x } }

/-- A window read (R449, R450): what remains of a long value is kept for the chunks that follow. DEDUCED: log entry 86. -/
def winReadRun (index sub length offset wseq : Nat) (s : State) : State :=
  let n := min length 32
  if offset = 0 then
    match dictRead s .ep index sub with
    | .error e => windowAnswer s e 0 [] wseq
    | .ok b =>
      let s := if 32 < b.length then setWin s (some { write := false, index := index, sub := sub, total := b.length, data := b.drop n, abandoned := false }) else s
      windowAnswer s 0 b.length (b.take n) wseq
  else if entryGate s .ep false index sub ≠ 0 then windowAnswer s (entryGate s .ep false index sub) 0 [] wseq
  else
    match s.mgmt.winXfer with
    | none => windowAnswer s 0x05040001 0 [] wseq
    | some x =>
      if x.abandoned then windowAnswer (setWin s none) 0x05040000 0 [] wseq
      else if x.write || decide (x.index ≠ index) || decide (x.sub ≠ sub) then windowAnswer s 0x05040001 0 [] wseq
      else if offset + x.data.length ≠ x.total then windowAnswer s 0x05030000 0 [] wseq
      else
        let rest := x.data.drop n
        windowAnswer (setWin s (if rest = [] then none else some { x with data := rest })) 0 x.total (x.data.take n) wseq

/-- A window write reaches its total: it takes its instant, and completes later where the entry says so (R440, R450). -/
def winTake (index sub wseq : Nat) (b : List Byte) (s : State) : State :=
  let r := dictWrite s .ep index sub b
  if r.2 = 0 ∧ index * 256 + sub = K.FP_ATOMIC ∧ r.1.fabric.pendingAtomic = true then
    { r.1 with sdo := 0, mgmt := { r.1.mgmt with busy := some (wseq, 0) } }
  else windowAnswer r.1 r.2 0 [] wseq

/-- A window write chunk (R449, R450). DEDUCED: log entry 86. -/
def winWriteRun (index sub offset total : Nat) (data : List Byte) (wseq : Nat) (s : State) : State :=
  let fresh : Xfer := { write := true, index := index, sub := sub, total := total, data := [], abandoned := false }
  let e := writeGate s .ep index sub total
  if entryGate s .ep true index sub ≠ 0 then windowAnswer s (entryGate s .ep true index sub) 0 [] wseq
  else if offset = 0 ∧ e ≠ 0 then windowAnswer (setWin s none) e 0 [] wseq
  else
    match (if offset = 0 then some fresh else s.mgmt.winXfer) with
    | none => windowAnswer s 0x05040001 0 [] wseq
    | some x =>
      if x.abandoned then windowAnswer (setWin s none) 0x05040000 0 [] wseq
      else if !x.write || decide (x.index ≠ index) || decide (x.sub ≠ sub) then windowAnswer s 0x05040001 0 [] wseq
      else if offset ≠ x.data.length then windowAnswer s 0x05030000 0 [] wseq
      else
        let d := x.data ++ data
        if x.total < d.length then windowAnswer (setWin s none) 0x06070010 0 [] wseq
        else if d.length = x.total then winTake index sub wseq d (setWin s none)
        else windowAnswer (setWin s (some { x with data := d })) 0 0 [] wseq

/-- A window describe request (R441, R449). -/
def winDescribeRun (index sub wseq : Nat) (s : State) : State :=
  match dictDescribe s .ep index sub with
  | .error e => windowAnswer s e 0 [] wseq
  | .ok v => windowAnswer s 0 0 (natLe 8 v) wseq

/-- The run-time's atomic has its answer: the requests that wait for it complete (R329, R440). -/
def settleAtomic (s : State) : State :=
  if s.fabric.pendingAtomic then s
  else
    let ws := s.mgmt.waiting
    let s := ws.foldl (fun s w => recordSeq (sendFrame s (okTo w.2)) w.2.client w.1 (some (okTo w.2))) { s with mgmt := { s.mgmt with waiting := [] } }
    match s.mgmt.busy with
    | some (wseq, _) => windowAnswer s 0 0 [] wseq
    | none => s

/-- NOTIFY (R448): the events raised since the last one, 64 at most, on each port with an address. -/
def notifyRun (s : State) : State :=
  let ps := [MgPort.mga, MgPort.mgb].filter (fun p => decide (notifyMac s p ≠ 0))
  if !dictUp s .dmp || decide (s.safety.notes = []) then s
  else
    let es := s.safety.notes.take 64
    let t := { s with safety := { s.safety with notes := s.safety.notes.drop 64 } }
    if ps = [] then t
    else
      let n := s.mgmt.notifySeq
      let t := { t with mgmt := { t.mgmt with notifySeq := (n + 1) % 2 ^ 32 } }
      ps.foldl (fun t p =>
        if linkUp s p then
          bump (sendFrame t { port := p, dst := notifyMac s p, vlan := none, type := 0x90, client := 0, seq := n, index := 0, sub := 0, size := 0, last := false,
                              dup := false, value := 0, data := es.flatMap eventBytes }) K.DMP_NOTIFY_SENT 1
        else bump t K.DMP_NOTIFY_DROPPED 1) t

/-- TRANSFER_ABANDONED (R446, R450): no frame for 1 s. -/
def abandon (s : State) (o : XferOwner) : State :=
  match o with
  | .client c =>
    { s with mgmt := { s.mgmt with clients := s.mgmt.clients.map (fun x => if x.id = c then { x with xfer := x.xfer.map (fun y => { y with abandoned := true }) } else x) } }
  | .window => setWin s (s.mgmt.winXfer.map (fun y => { y with abandoned := true }))

/-- READ_REQ (R443). -/
def execReadReq (f : DmpFrame) (s : State) : Host.Outcome State Fault Refusal := whenAlive s (takeFrame s f 0x01)

/-- WRITE_EXP (R443). -/
def execWriteExp (f : DmpFrame) (s : State) : Host.Outcome State Fault Refusal := whenAlive s (takeFrame s f 0x02)

/-- WRITE_INIT (R446). -/
def execWriteInit (f : DmpFrame) (s : State) : Host.Outcome State Fault Refusal := whenAlive s (takeFrame s f 0x03)

/-- SEGMENT (R446). -/
def execSegment (f : DmpFrame) (s : State) : Host.Outcome State Fault Refusal := whenAlive s (takeFrame s f 0x04)

/-- SEG_READ (R446). -/
def execSegRead (f : DmpFrame) (s : State) : Host.Outcome State Fault Refusal := whenAlive s (takeFrame s f 0x05)

/-- DESCRIBE (R441). -/
def execDescribe (f : DmpFrame) (s : State) : Host.Outcome State Fault Refusal := whenAlive s (takeFrame s f 0x06)

/-- TRANSFER_ABANDONED (R446). -/
def execTransferAbandoned (owner : XferOwner) (s : State) : Host.Outcome State Fault Refusal := whenAlive s (abandon s owner)

/-- WIN_READ (R449, R450). -/
def execWinRead (index sub length offset wseq : Nat) (s : State) : Host.Outcome State Fault Refusal :=
  whenAlive s (submit s (winReadRun index sub length offset wseq))

/-- WIN_WRITE (R449, R450). -/
def execWinWrite (index sub offset total : Nat) (data : List Byte) (wseq : Nat) (s : State) : Host.Outcome State Fault Refusal :=
  whenAlive s (submit s (winWriteRun index sub offset total data wseq))

/-- WIN_DESCRIBE (R441, R449). -/
def execWinDescribe (index sub wseq : Nat) (s : State) : Host.Outcome State Fault Refusal := whenAlive s (submit s (winDescribeRun index sub wseq))

/-- NOTIFY (R448). -/
def execNotify (s : State) : Host.Outcome State Fault Refusal := whenAlive s (notifyRun s)

/-- RESPONSE arriving (R324, R332, R334), and what waits for the atomic's (R329). -/
def execResponse (p : Packet) (s : State) : Host.Outcome State Fault Refusal := whenWorking s (settleAtomic (rxPlain s p 0x08 takeResponse))

/-- REQUEST_TIMEOUT (R285, R332). -/
def execRequestTimeout (tag : Nat) (s : State) : Host.Outcome State Fault Refusal := whenWorking s (settleAtomic (requestTimeout s tag))

end Sys2Proof.Machine
end

