-- ==== Sys2Proof/Machine/Guard.lean ====
section
/-! DEFINITION. The safety monitor's detections (R348, R402-R407). -/
namespace Sys2Proof.Machine

/-- A known-answer slot ends (R403): a pass is the group's last pass; a failure drives SAFE_FAULT with cause 2, results suspect since the pass
before, and takes the group out. DEDUCED: log entry 68. -/
def knownAnswer (s : State) (g : Nat) (pass : Bool) : State :=
  if (lgOut s).testBit g then s
  else
    let s := bump s K.KAT_RUNS 1
    if pass then { s with safety := { s.safety with katPass := smapPut s.safety.katPass g (stamp s) } }
    else
      let s := lifeBump (bump s K.KAT_FAILS 1) (ltKey 7) 1
      laneGroupOut (safeFaultSince s 2 (nodeWord (groupStation g) g false) ((smapGet s.safety.katPass g).getD 0)) g 0

/-- A lockstep miscompare (R404): SAFE_FAULT with cause 1, and both processors restart into the diagnostic state. -/
def lockstep (s : State) : State :=
  if reg s K.START_STAGE < 2 then s
  else
    let s := safeFault s 1 (nodeWord stMSN 0 true)
    { s with mason := { s.mason with diag := true, bare := false },
             mgmt := { s.mgmt with clients := [], winXfer := none, busy := none, waiting := [] } }

/-- A watchdog trip or a dual-rail error (R402). -/
def watchdog (s : State) (site : TripSite) : State :=
  let s := bump s K.WATCHDOG_TRIPS 1
  match site with
  | .laneGroup g dual => laneGroupOut s g (if dual then 4 else 3)
  | .elsewhere st unit => safeFault s 3 (nodeWord st unit false)

/-- The junction limit of R478, in eighths of a degree. -/
def junctionLimit : Int := 880

/-- What the supply and temperature monitor does with an excursion (R406). DEDUCED: log entry 70. -/
def excursion (s : State) (x : Excursion) : State :=
  match x with
  | .vddLogic nv ns => if (nv < 480000000 ∨ 920000000 < nv) ∧ 1000 ≤ ns then safeFault s 4 (nodeWord stSAF 0 false) else s
  | .vddMem nv ns => if (nv < 680000000 ∨ 870000000 < nv) ∧ 1000 ≤ ns then safeFault s 4 (nodeWord stSAF 0 false) else s
  | .temperature r t => if junctionLimit < t then safeFault s 4 (nodeWord stSAF r false) else s

/-- Pairs of regions that share an edge, in the 4 × 4 grid of R348. -/
def adjacentPairs : List (Nat × Nat) :=
  (List.range 16).flatMap (fun r => (if r % 4 < 3 then [((r, r + 1) : Nat × Nat)] else []) ++ (if r < 12 then [((r, r + 4) : Nat × Nat)] else []))

/-- A pair differs by more than 40 mV or 15 °C (R348). -/
def pairSkewed (mv : List Nat) (ts : List Int) (p : Nat × Nat) : Bool :=
  let a := (mv[p.1]?).getD 0
  let b := (mv[p.2]?).getD 0
  decide (40 < max a b - min a b) || decide (120 < ((ts[p.1]?).getD 0 - (ts[p.2]?).getD 0).natAbs)

/-- A temperature as the 16 bits of REGION_TEMP. -/
def tempBits (t : Int) : Nat := (t % 65536).toNat

/-- A sample of the region sensors (R348, R406). -/
def sampleRegions (s : State) (mv : List Nat) (ts : List Int) : State :=
  let s := setRegs s ((List.range 16).flatMap (fun r => [(K.REGION_MV r, (mv[r]?).getD 0), (K.REGION_TEMP r, tempBits ((ts[r]?).getD 0))]))
  let s := match adjacentPairs.find? (pairSkewed mv ts) with
    | some p => raise (lifeBump (bump s K.REGION_SKEW_EVENTS 1) (ltKey 14) 1) 0x0D stSAF 0 none false (p.1 + p.2 * 256)
    | none => s
  match (List.range 16).find? (fun r => decide (junctionLimit < (ts[r]?).getD 0)) with
  | some r => safeFault s 4 (nodeWord stSAF r false)
  | none => s

/-- KNOWN_ANSWER_SLOT (R403). -/
def execKnownAnswerSlot (g : Nat) (pass : Bool) (s : State) : Host.Outcome State Fault Refusal := whenWorking s (knownAnswer s g pass)

/-- LOCKSTEP_MISCOMPARE (R404). -/
def execLockstepMiscompare (s : State) : Host.Outcome State Fault Refusal := whenAlive s (lockstep s)

/-- SAF_MUTUAL_CHECK (R407). -/
def execSafMutualCheck (agree : Bool) (s : State) : Host.Outcome State Fault Refusal :=
  whenAlive s (if agree then s else safeFault s 6 (nodeWord stSAF 0 true))

/-- WATCHDOG_TRIP (R402). -/
def execWatchdogTrip (site : TripSite) (s : State) : Host.Outcome State Fault Refusal := whenAlive s (watchdog s site)

/-- SUPPLY_EXCURSION (R406, R476). -/
def execSupplyExcursion (x : Excursion) (s : State) : Host.Outcome State Fault Refusal := whenAlive s (excursion s x)

/-- REGION_SAMPLE (R348, R406). -/
def execRegionSample (mv : List Nat) (temps : List Int) (s : State) : Host.Outcome State Fault Refusal := whenAlive s (sampleRegions s mv temps)

/-- MORTAR_VERIFY (R405). -/
def execMortarVerify (q : Nat) (s : State) : Host.Outcome State Fault Refusal := whenWorking s (mortarVerify s q)

end Sys2Proof.Machine
end

