-- ==== Sys2Proof/Machine/Ports.lean ====
section
/-! DEFINITION. The ports: tiles to and from the host (R481), the memory and fabric ports' inputs (R75, R76, R354, R484, R485), the management
links (R486), the voltage request (R474), the paced schedule's releases (R351-R355) and the test access port (R480). -/
namespace Sys2Proof.Machine

/-- A stream takes the host's tile: it is held, its route begins at EP, and its next expected ordinal is the tile's (R481). -/
def expects (q token ordinal : Nat) (x : Stream) : Bool :=
  x.taken && x.finish.isNone && !x.closing && decide (x.queue = q ∧ x.d.token = token ∧ srcHop x.d = stEP ∧ x.nextIn = ordinal ∧ ordinal < x.d.count)

/-- The stream that takes an inbound tile: among several, the one accepted first (R481). -/
def inboundStream (s : State) (q token ordinal : Nat) : Option Stream :=
  (s.tracker.streams.filter (expects q token ordinal)).foldl (fun b x => match b with
    | none => some x
    | some y => if x.id < y.id then some x else some y) none

/-- How an event names a tile that enters through EP: by its destination name, where it has one (R386). -/
def inboundIdent (x : Stream) (ordinal : Nat) : Ident :=
  if x.d.opcode = 0x01 ∧ sinkHop x.d ≠ stEP then identName (foldName x.d ordinal) else identQueue (x.queue % 64)

/-- A tile's VALID within its format's elements (R37); PACKED has no element count. -/
def clampValid (s : State) (t : Tile) : State × Tile :=
  if t.info.format ≠ 7 ∧ elemCount t.info.format < t.info.valid then
    (bump s K.EP_VALID_CLAMPED 1, { t with info := { t.info with valid := elemCount t.info.format } })
  else (s, t)

/-- EP_IN_TILE (R37, R481): a tile that no stream expects is taken and discarded. DEDUCED: log entry 72. -/
def inboundTile (s : State) (q token ordinal : Nat) (t : Tile) : State :=
  if !epOpen s then s
  else
    match inboundStream s q token ordinal with
    | none => bump s K.EP_UNMATCHED_TILES 1
    | some x =>
      let s := charge s x.d.part x.d.cls 18 4096
      if 8 ≤ t.info.format then
        (if accumulates x.d then rdxWake (failAcc s x 0x20 0)
         else if x.d.opcode = 0x85 then restoreFails s x 0x20 (failDetail s x.id 0x20 0)
         else failStream s x.id 0x20 0)
      else
        match clampValid s t with
        | (s, t) =>
          match checkTile s (inboundIdent x ordinal) (some x.d.part) t with
          | (s, t) => updStream s x.id (fun y => { y with inbox := y.inbox ++ [t], nextIn := y.nextIn + 1 })

/-- A port's number: 0 EP, 1 to 16 MP0 to MP15, 17 FP, as its domain's (R357). -/
def portNumber (p : PacePort) : Nat := match p with | .ep => 0 | .mp p => p + 1 | .fp => 17

/-- The station and unit of a port. -/
def paceNode (p : PacePort) : Nat × Nat := match p with | .ep => (stEP, 0) | .mp p => (stMP, p) | .fp => (stFP, 0)

/-- Add to a counter what is not zero. -/
def bumpSome (s : State) (k n : Nat) : State := if n = 0 then s else bump s k n

/-- In paced mode the waits of a port move what is scheduled after them (R354). -/
def portWaits (s : State) (k n : Nat) : State :=
  if reg s K.TIMING_MODE = 1 then { s with pace := { s.pace with moved := smapPut s.pace.moved k ((smapGet s.pace.moved k).getD 0 + n) } } else s

/-- What an outbound tile is ordered by among those that wait for the host (R365). -/
def outKey (s : State) (o : OutTile) : List Nat := [o.who.cls, deadlineKey s o.who.deadline, o.queue, o.sid]

/-- The outbound tile that leaves next: in free mode the first in the order of R365, the tiles of one stream in ascending ordinal; in paced
mode the oldest of those that are released (R351). -/
def outNext (s : State) : Option OutTile :=
  if reg s K.TIMING_MODE = 1 then (if s.pace.released = 0 then none else s.epOut.head?)
  else s.epOut.foldl (fun b o => match b with
    | none => some o
    | some x => if keyBefore (outKey s o) (outKey s x) then some o else some x) none

/-- EP_OUT_TILE (R354, R365, R481): the host takes the outbound tile that leaves next, or holds it. -/
def outboundTile (s : State) (take : HostTake) : State :=
  if !epOpen s then s
  else
    match outNext s with
    | none => s
    | some o =>
      match take with
      | .taken => { s with epOut := s.epOut.erase o, pace := { s.pace with released := s.pace.released - 1 } }
      | .held n => portWaits (bumpSome s K.EP_HOST_HOLD_CYCLES n) 0 n

/-- A memory controller answers (R73, R75, R353): the MP cycles for which it withheld readiness count as back-pressure or refresh, and those
by which its response came later than PACE_MP_CYCLES after its scheduled issue as lateness or refresh, by whether the port's refresh input
was asserted meanwhile. A late response moves what depends on it. DEDUCED: log entry 73. -/
def mpResponse (s : State) (p held cycles : Nat) : State :=
  let refresh := s.pins.refresh.testBit p || s.pins.refreshed.testBit p
  let late := cycles - reg s (K.PACE_MP_CYCLES p)
  let s := bumpSome s (if refresh then K.MP_REFRESH_NS p else K.MP_BP_NS p) (cyclesNs s (p + 1) held)
  let s := bumpSome s (if refresh then K.PACE_REFRESH_CYCLES else K.PACE_MP_LATE_CYCLES) late
  { s with pins := { s.pins with refreshed := setBit s.pins.refreshed p false },
           pace := { s.pace with moved := if reg s K.TIMING_MODE = 1 ∧ late ≠ 0 then smapPut s.pace.moved (p + 1) late else smapErase s.pace.moved (p + 1) } }

/-- Cycles of one aligned domain as cycles of another (R359). -/
def mapCycles (s : State) (a b n : Nat) : Nat := ceilDiv (n * reg s (K.ALIGN_COUNTS b)) (max 1 (reg s (K.ALIGN_COUNTS a)))

/-- By how many of its cycles an output moves: it depends on late inputs, waits and slipped outputs of the ports in `after`; the port itself
stands there where the output was scheduled after a wait of the port (R353-R355). DEDUCED: log entry 73. -/
def movedBy (s : State) (p : PacePort) (after : List PacePort) : Nat :=
  (after.map (fun a =>
    let k := portNumber a
    let slip := if a = p then 0 else (smapGet s.pace.slipped k).getD 0
    mapCycles s k (portNumber p) ((smapGet s.pace.moved k).getD 0 + slip))).foldl max 0

/-- Port cycles that an output takes: a tile at EP, eight beats of a tile or one of a line at an MP port, 32 payload lines to a cycle at FP (R352, R484). -/
def portWidth (p : PacePort) (lines : Nat) : Nat :=
  match p with
  | .ep => 1
  | .mp _ => if lines = 1 then 1 else 8
  | .fp => max 1 (ceilDiv lines 32)

/-- An output slips by n cycles (R355). -/
def paceSlip (s : State) (p : PacePort) (n : Nat) : State :=
  let s := lifeBump (bump (bump s K.PACE_SLIPS 1) K.PACE_SLIP_CYCLES n) (ltKey 12) 1
  raise s 0x0C (paceNode p).1 (paceNode p).2 none false (min n (2 ^ 32 - 1))

/-- The record of a port whose output leaves `late` cycles after the cycle it was due, the next following it by `width`. -/
def paceLeft (s : State) (p : PacePort) (after : List PacePort) (leaves late width : Nat) : Pace :=
  let k := portNumber p
  let own := match p with | .mp _ => true | _ => after.contains p
  { s.pace with
    next := if late = 0 then smapErase s.pace.next k else smapPut s.pace.next k (leaves + width),
    moved := if own then s.pace.moved else smapErase s.pace.moved k,
    slipped := if late = 0 then smapErase s.pace.slipped k else smapPut s.pace.slipped k late,
    released := s.pace.released + b2n (decide (p = .ep)) }

/-- A port output is released in paced mode (R351-R355): on the cycle that the calendar gives it, moved by what it depends on; or on the
first cycle at which it is ready and no slipped output of the port is before it. An EP output is a tile that waits for its release. -/
def releaseOutput (s : State) (p : PacePort) (scheduled ready lines : Nat) (after : List PacePort) : State :=
  if reg s K.TIMING_MODE ≠ 1 ∨ (p = .ep ∧ s.epOut.length ≤ s.pace.released) then s
  else
    let due := scheduled + movedBy s p after
    let leaves := max due (max ready ((smapGet s.pace.next (portNumber p)).getD 0))
    let t := { s with pace := paceLeft s p after leaves (leaves - due) (portWidth p lines) }
    if leaves = due then t else paceSlip t p (leaves - due)

/-- A verdict of a memory controller waits for its transaction (R73, R76). -/
def pushVerdict (s : State) (p : Nat) (v : Verdict) : State :=
  { s with verdicts := smapPut s.verdicts p (((smapGet s.verdicts p).getD []) ++ [v]) }

/-- The link signals a retry: it did not take the beat (R354, R485). DEDUCED: log entry 74. -/
def linkRetry (s : State) (cycles : Nat) : State :=
  if cycles = 0 then s else portWaits (bump (bump s K.FP_LINK_RETRIES 1) K.FP_RETRY_CYCLES cycles) 17 cycles

/-- The code that VREQ moves towards (R349, R474). -/
def vreqTarget (s : State) : Nat := if reg s K.TIMING_MODE = 1 then max (reg s K.VREQ_CODE) 0x0D else reg s K.VREQ_CODE

/-- VREQ_STEP (R474): one step towards the target. DESIGN CHOICE: log entry 75. -/
def vreqStep (s : State) : State :=
  let v := reg s K.VREQ_OUT
  let t := vreqTarget s
  if v = t then s else bump (setReg s K.VREQ_OUT (if v < t then v + 1 else v - 1)) K.VREQ_STEPS 1

/-- IDCODE (R480). -/
def idcode : Nat := 0x2 * 2 ^ 28 + 0x5632 * 2 ^ 12 + Config.jepCode.toNat * 2 + 1

/-- The signals that the model holds, as boundary cells: SAFE_FAULT, EV_HOST, RESETn, FP_LINK_UP, FP_TX_RETRY, MGA_LINK and MGB_LINK from bit 0,
VREQ from bit 8, MP_REFRESH from bit 16. -/
def boundary (s : State) : Nat :=
  b2n s.pins.safeT + 2 * b2n s.pins.safeC + 4 * b2n (evHost s) + 8 * b2n s.pins.resetn + 16 * b2n s.pins.fpUp + 32 * b2n s.pins.fpRetry +
    64 * b2n s.pins.mga + 128 * b2n s.pins.mgb + reg s K.VREQ_OUT * 2 ^ 8 + s.pins.refresh * 2 ^ 16

/-- An instruction of the test access port (R480): it leaves the block's own state as it is. -/
def tapPins (s : State) (op : TapOp) : Pins :=
  match op with
  | .bypass => { s.pins with tap := op, tapOut := 0 }
  | .sample => { s.pins with tap := op, cells := boundary s, tapOut := boundary s }
  | .preload c => { s.pins with tap := op, cells := c }
  | .extest => { s.pins with tap := op, tapOut := s.pins.cells }
  | .idcode => { s.pins with tap := op, tapOut := idcode }
  | .highz => { s.pins with tap := op, tapOut := 0 }

/-- What an instrument reads back. -/
def instrumentReads (s : State) (b : List Byte) : State := { s with pins := { s.pins with instrument := b } }

/-- A setting that an instrument may change: a number that the dictionary may write, and no station's work before the block is ready. -/
def settable (s : State) (index sub : Nat) : Bool :=
  match dictRow index sub with
  | some r => decide (r.acc = 2) && fixedType r.ty && (working s || !stationWrite index sub)
  | none => false

/-- IJTAG_INSTRUMENT (R480): one that writes acts only while no partition has a job attached, and reads zero otherwise. DEDUCED: log entry 76. -/
def instrument (s : State) (i : Instrument) : Host.Outcome State Fault Refusal :=
  match i with
  | .readRegion r => whenAlive s (instrumentReads s (natLe 2 (reg s (K.REGION_MV (r % 16))) ++ natLe 2 (reg s (K.REGION_TEMP (r % 16)))))
  | .writeLine slot l b =>
    if anyJob s then whenAlive s (instrumentReads s (zeros 64))
    else if 524288 ≤ slot then .fault (.noSuchSlot slot)
    else whenAlive s (instrumentReads (writeYardLine s (yardAddr slot l) { bytes := b, mark := 0 }) b)
  | .writeSetting index sub v =>
    if anyJob s || !settable s index sub then whenAlive s (instrumentReads s (zeros 8))
    else whenAlive s (instrumentReads (writeNumber s index sub v).1 (natLe 8 v))

/-- EP_IN_TILE (R481). -/
def execEpInTile (q token ordinal : Nat) (t : Tile) (s : State) : Host.Outcome State Fault Refusal := whenWorking s (inboundTile s q token ordinal t)

/-- EP_OUT_TILE (R481). -/
def execEpOutTile (take : HostTake) (s : State) : Host.Outcome State Fault Refusal := whenWorking s (outboundTile s take)

/-- PACED_RELEASE (R351). -/
def execPacedRelease (port : PacePort) (scheduled ready : Nat) (out : PortOutput) (s : State) : Host.Outcome State Fault Refusal :=
  whenWorking s (releaseOutput s port scheduled ready out.lines out.after)

/-- MP_RESPONSE (R73, R75, R76, R353). -/
def execMpResponse (port : Nat) (answer : MpAnswer) (s : State) : Host.Outcome State Fault Refusal :=
  whenWorking s (pushVerdict (mpResponse s port answer.held answer.cycles) port (if answer.err then .error else .done))

/-- MP_TIMEOUT (R76). -/
def execMpTimeout (port : Nat) (s : State) : Host.Outcome State Fault Refusal := whenWorking s (pushVerdict s port .timeout)

/-- FP_LINK_UP (R485): the input changes, whatever the block does. -/
def execFpLinkUp (up : Bool) (s : State) : Host.Outcome State Fault Refusal := .next { s with pins := { s.pins with fpUp := up } }

/-- FP_TX_RETRY (R354): the input, as last sampled, and the wait; no wait is the input's fall. -/
def execFpTxRetry (cycles : Nat) (s : State) : Host.Outcome State Fault Refusal :=
  let s := { s with pins := { s.pins with fpRetry := decide (cycles ≠ 0) } }
  whenWorking s (linkRetry s cycles)

/-- MGX_LINK (R486). -/
def execMgxLink (port : MgPort) (up : Bool) (s : State) : Host.Outcome State Fault Refusal :=
  .next { s with pins := match port with | .mga => { s.pins with mga := up } | .mgb => { s.pins with mgb := up } }

/-- MP_REFRESH (R75). -/
def execMpRefresh (port : Nat) (high : Bool) (s : State) : Host.Outcome State Fault Refusal :=
  .next { s with pins := { s.pins with refresh := setBit s.pins.refresh port high,
                                       refreshed := if high then setBit s.pins.refreshed port true else s.pins.refreshed } }

/-- VREQ_STEP (R474). -/
def execVreqStep (s : State) : Host.Outcome State Fault Refusal := whenAlive s (vreqStep s)

/-- TAP_INSTRUCTION (R480). -/
def execTapInstruction (op : TapOp) (s : State) : Host.Outcome State Fault Refusal := .next { s with pins := tapPins s op }

/-- IJTAG_INSTRUMENT (R480). -/
def execIjtagInstrument (i : Instrument) (s : State) : Host.Outcome State Fault Refusal := instrument s i

end Sys2Proof.Machine
end

