-- ==== Sys2Proof/Machine/Dispatch.lean ====
section
/-! DEFINITION. One arm per command: its meaning, on everything but the queue. -/
namespace Sys2Proof.Machine

/-- The effect of one command on the block (the queue of waiting commands apart). -/
def exec (i : Instr) (s : State) : Host.Outcome State Fault Refusal :=
  match i with
  | .descriptorFetch q => Sys2Proof.Machine.execDescriptorFetch q s
  | .fenceRelease sid => Sys2Proof.Machine.execFenceRelease sid s
  | .completionRecord q => Sys2Proof.Machine.execCompletionRecord q s
  | .nop sid => Sys2Proof.Machine.execNop sid s
  | .stream sid => Sys2Proof.Machine.execStream sid s
  | .abort sid => Sys2Proof.Machine.execAbort sid s
  | .homeBind sid => Sys2Proof.Machine.execHomeBind sid s
  | .homeUnbind sid => Sys2Proof.Machine.execHomeUnbind sid s
  | .move sid => Sys2Proof.Machine.execMove sid s
  | .homeRead sid => Sys2Proof.Machine.execHomeRead sid s
  | .wbFlush sid => Sys2Proof.Machine.execWbFlush sid s
  | .wbInvalidate sid => Sys2Proof.Machine.execWbInvalidate sid s
  | .wbFlushInvalidate sid => Sys2Proof.Machine.execWbFlushInvalidate sid s
  | .hodOpen sid => Sys2Proof.Machine.execHodOpen sid s
  | .hodPush sid => Sys2Proof.Machine.execHodPush sid s
  | .hodPushResume sid => Sys2Proof.Machine.execHodPushResume sid s
  | .hodPrefetchFill stack => Sys2Proof.Machine.execHodPrefetchFill stack s
  | .hodPop sid => Sys2Proof.Machine.execHodPop sid s
  | .hodClose sid => Sys2Proof.Machine.execHodClose sid s
  | .hodStatsPush sid => Sys2Proof.Machine.execHodStatsPush sid s
  | .hodStatsOrder sid => Sys2Proof.Machine.execHodStatsOrder sid s
  | .hodStatsRead sid => Sys2Proof.Machine.execHodStatsRead sid s
  | .plbClose sid => Sys2Proof.Machine.execPlbClose sid s
  | .sivMerge sid => Sys2Proof.Machine.execSivMerge sid s
  | .sivGather sid => Sys2Proof.Machine.execSivGather sid s
  | .sivScatter sid => Sys2Proof.Machine.execSivScatter sid s
  | .sivDispatch sid => Sys2Proof.Machine.execSivDispatch sid s
  | .sivReturn sid => Sys2Proof.Machine.execSivReturn sid s
  | .trgOpen sid => Sys2Proof.Machine.execTrgOpen sid s
  | .trgAcc sid => Sys2Proof.Machine.execTrgAcc sid s
  | .trgRowAdd sid => Sys2Proof.Machine.execTrgRowAdd sid s
  | .trgDone sid => Sys2Proof.Machine.execTrgDone sid s
  | .trgRead sid => Sys2Proof.Machine.execTrgRead sid s
  | .trgClose sid => Sys2Proof.Machine.execTrgClose sid s
  | .rdxReduce sid => Sys2Proof.Machine.execRdxReduce sid s
  | .rdxNormLocal sid => Sys2Proof.Machine.execRdxNormLocal sid s
  | .rdxGather sid => Sys2Proof.Machine.execRdxGather sid s
  | .rdxNorm sid => Sys2Proof.Machine.execRdxNorm sid s
  | .trwLoadProgram sid => Sys2Proof.Machine.execTrwLoadProgram sid s
  | .trwUpdate sid => Sys2Proof.Machine.execTrwUpdate sid s
  | .mixSeal sid => Sys2Proof.Machine.execMixSeal sid s
  | .mixSealDone sid => Sys2Proof.Machine.execMixSealDone sid s
  | .mixCommit sid => Sys2Proof.Machine.execMixCommit sid s
  | .rptFetch sid => Sys2Proof.Machine.execRptFetch sid s
  | .rptGradRepair sid => Sys2Proof.Machine.execRptGradRepair sid s
  | .mixEncode sid => Sys2Proof.Machine.execMixEncode sid s
  | .snpBegin sid => Sys2Proof.Machine.execSnpBegin sid s
  | .snpExport sid => Sys2Proof.Machine.execSnpExport sid s
  | .snpLedger sid => Sys2Proof.Machine.execSnpLedger sid s
  | .snpEnd sid => Sys2Proof.Machine.execSnpEnd sid s
  | .snpRestoreBegin sid => Sys2Proof.Machine.execSnpRestoreBegin sid s
  | .snpRestore sid => Sys2Proof.Machine.execSnpRestore sid s
  | .snpRestoreEnd sid => Sys2Proof.Machine.execSnpRestoreEnd sid s
  | .writeDesc q pos line => Sys2Proof.Machine.execWriteDesc q pos line s
  | .readCompl q pos => Sys2Proof.Machine.execReadCompl q pos s
  | .writeIndex q consumer value => Sys2Proof.Machine.execWriteIndex q consumer value s
  | .qStateEnable path q => Sys2Proof.Machine.execQStateEnable path q s
  | .qStateDisable path q => Sys2Proof.Machine.execQStateDisable path q s
  | .queueDrained q => Sys2Proof.Machine.execQueueDrained q s
  | .hmStateOn path q => Sys2Proof.Machine.execHmStateOn path q s
  | .hmInitDone q => Sys2Proof.Machine.execHmInitDone q s
  | .hmStateOff path q => Sys2Proof.Machine.execHmStateOff path q s
  | .hmAdopt path q => Sys2Proof.Machine.execHmAdopt path q s
  | .wytheStateOn path q => Sys2Proof.Machine.execWytheStateOn path q s
  | .wytheStateOff path q => Sys2Proof.Machine.execWytheStateOff path q s
  | .memberCmd path q record => Sys2Proof.Machine.execMemberCmd path q record s
  | .rebuildBrick q => Sys2Proof.Machine.execRebuildBrick q s
  | .jobStart path q record => Sys2Proof.Machine.execJobStart path q record s
  | .jobRejoin path q record => Sys2Proof.Machine.execJobRejoin path q record s
  | .jobControlReady path q => Sys2Proof.Machine.execJobControlReady path q s
  | .jobControlEnd path q => Sys2Proof.Machine.execJobControlEnd path q s
  | .fwImage path image => Sys2Proof.Machine.execFwImage path image s
  | .fwControl path => Sys2Proof.Machine.execFwControl path s
  | .fwCheckDone uncorrectable => Sys2Proof.Machine.execFwCheckDone uncorrectable s
  | .selfTestDone failedGroups failedBankGroup => Sys2Proof.Machine.execSelfTestDone failedGroups failedBankGroup s
  | .masonBoot => Sys2Proof.Machine.execMasonBoot s
  | .lifeRecord path record => Sys2Proof.Machine.execLifeRecord path record s
  | .lifeShutdownPush path => Sys2Proof.Machine.execLifeShutdownPush path s
  | .lifeShutdownMissing path => Sys2Proof.Machine.execLifeShutdownMissing path s
  | .lifePush => Sys2Proof.Machine.execLifePush s
  | .lifeGridSample => Sys2Proof.Machine.execLifeGridSample s
  | .lifeLatencySample station meanPs => Sys2Proof.Machine.execLifeLatencySample station meanPs s
  | .tbSet path value => Sys2Proof.Machine.execTbSet path value s
  | .tbAdjust path value => Sys2Proof.Machine.execTbAdjust path value s
  | .tppsEdge cycles => Sys2Proof.Machine.execTppsEdge cycles s
  | .tppsMissed => Sys2Proof.Machine.execTppsMissed s
  | .sync m twoStep => Sys2Proof.Machine.execSync m twoStep s
  | .followUp m => Sys2Proof.Machine.execFollowUp m s
  | .announce a => Sys2Proof.Machine.execAnnounce a s
  | .delayResp m => Sys2Proof.Machine.execDelayResp m s
  | .delayReq => Sys2Proof.Machine.execDelayReq s
  | .announceTimeout => Sys2Proof.Machine.execAnnounceTimeout s
  | .evConsumer path value => Sys2Proof.Machine.execEvConsumer path value s
  | .notify => Sys2Proof.Machine.execNotify s
  | .readReq f => Sys2Proof.Machine.execReadReq f s
  | .writeExp f => Sys2Proof.Machine.execWriteExp f s
  | .writeInit f => Sys2Proof.Machine.execWriteInit f s
  | .segment f => Sys2Proof.Machine.execSegment f s
  | .segRead f => Sys2Proof.Machine.execSegRead f s
  | .describe f => Sys2Proof.Machine.execDescribe f s
  | .transferAbandoned owner => Sys2Proof.Machine.execTransferAbandoned owner s
  | .winRead index sub length offset wseq => Sys2Proof.Machine.execWinRead index sub length offset wseq s
  | .winWrite index sub offset total data wseq => Sys2Proof.Machine.execWinWrite index sub offset total data wseq s
  | .winDescribe index sub wseq => Sys2Proof.Machine.execWinDescribe index sub wseq s
  | .dictWrite path index sub value => Sys2Proof.Machine.execDictWrite path index sub value s
  | .fpAtomic path record => Sys2Proof.Machine.execFpAtomic path record s
  | .bgReplace path q value => Sys2Proof.Machine.execBgReplace path q value s
  | .bgBcast path q record => Sys2Proof.Machine.execBgBcast path q record s
  | .scrHostRange path record => Sys2Proof.Machine.execScrHostRange path record s
  | .safTest path value => Sys2Proof.Machine.execSafTest path value s
  | .flipStateArm path => Sys2Proof.Machine.execFlipStateArm path s
  | .flipStateDisarm path => Sys2Proof.Machine.execFlipStateDisarm path s
  | .load p => Sys2Proof.Machine.execLoad p s
  | .store p => Sys2Proof.Machine.execStore p s
  | .flaggedStore p => Sys2Proof.Machine.execFlaggedStore p s
  | .atomic p => Sys2Proof.Machine.execAtomic p s
  | .response p => Sys2Proof.Machine.execResponse p s
  | .wyBrickState p => Sys2Proof.Machine.execWyBrickState p s
  | .wyBrickGradient p => Sys2Proof.Machine.execWyBrickGradient p s
  | .wyAck p => Sys2Proof.Machine.execWyAck p s
  | .wyResendReq p => Sys2Proof.Machine.execWyResendReq p s
  | .wyEncodeReq p => Sys2Proof.Machine.execWyEncodeReq p s
  | .wyEncodeRetry p => Sys2Proof.Machine.execWyEncodeRetry p s
  | .wyLedger p => Sys2Proof.Machine.execWyLedger p s
  | .wyFence p => Sys2Proof.Machine.execWyFence p s
  | .wyRepair p => Sys2Proof.Machine.execWyRepair p s
  | .wyRepairReq p => Sys2Proof.Machine.execWyRepairReq p s
  | .wyReady p => Sys2Proof.Machine.execWyReady p s
  | .rdxOpen p => Sys2Proof.Machine.execRdxOpen p s
  | .rdxSegment p => Sys2Proof.Machine.execRdxSegment p s
  | .rdxCredit p => Sys2Proof.Machine.execRdxCredit p s
  | .rdxAbandon p => Sys2Proof.Machine.execRdxAbandon p s
  | .rdxNormPartial p => Sys2Proof.Machine.execRdxNormPartial p s
  | .heartbeat p => Sys2Proof.Machine.execHeartbeat p s
  | .hello p => Sys2Proof.Machine.execHello p s
  | .echo p => Sys2Proof.Machine.execEcho p s
  | .echoReply p => Sys2Proof.Machine.execEchoReply p s
  | .barrierArrive p => Sys2Proof.Machine.execBarrierArrive p s
  | .barrierRelease p => Sys2Proof.Machine.execBarrierRelease p s
  | .bcastData p => Sys2Proof.Machine.execBcastData p s
  | .bcastResume p => Sys2Proof.Machine.execBcastResume p s
  | .bcastDone p => Sys2Proof.Machine.execBcastDone p s
  | .heartbeatTick => Sys2Proof.Machine.execHeartbeatTick s
  | .peerSilent node => Sys2Proof.Machine.execPeerSilent node s
  | .requestTimeout tag => Sys2Proof.Machine.execRequestTimeout tag s
  | .flagTimeout src part seq => Sys2Proof.Machine.execFlagTimeout src part seq s
  | .deltaResend q kind course rank => Sys2Proof.Machine.execDeltaResend q kind course rank s
  | .encodeReqResend q course rank => Sys2Proof.Machine.execEncodeReqResend q course rank s
  | .versionRetry q course lost => Sys2Proof.Machine.execVersionRetry q course lost s
  | .mpResponse port answer => Sys2Proof.Machine.execMpResponse port answer s
  | .mpTimeout port => Sys2Proof.Machine.execMpTimeout port s
  | .rdxStalled sid => Sys2Proof.Machine.execRdxStalled sid s
  | .commitStalled sid => Sys2Proof.Machine.execCommitStalled sid s
  | .barrierCountdownExpiry q kind => Sys2Proof.Machine.execBarrierCountdownExpiry q kind s
  | .knownAnswerSlot g pass => Sys2Proof.Machine.execKnownAnswerSlot g pass s
  | .lockstepMiscompare => Sys2Proof.Machine.execLockstepMiscompare s
  | .safMutualCheck agree => Sys2Proof.Machine.execSafMutualCheck agree s
  | .watchdogTrip site => Sys2Proof.Machine.execWatchdogTrip site s
  | .supplyExcursion x => Sys2Proof.Machine.execSupplyExcursion x s
  | .regionSample mv temps => Sys2Proof.Machine.execRegionSample mv temps s
  | .mortarVerify q => Sys2Proof.Machine.execMortarVerify q s
  | .scrubLine => Sys2Proof.Machine.execScrubLine s
  | .scrLapLimit => Sys2Proof.Machine.execScrLapLimit s
  | .pacedRelease port scheduled ready out => Sys2Proof.Machine.execPacedRelease port scheduled ready out s
  | .epInTile q token ordinal t => Sys2Proof.Machine.execEpInTile q token ordinal t s
  | .epOutTile take => Sys2Proof.Machine.execEpOutTile take s
  | .fpLinkUp up => Sys2Proof.Machine.execFpLinkUp up s
  | .vreqStep => Sys2Proof.Machine.execVreqStep s
  | .alignEdge counts => Sys2Proof.Machine.execAlignEdge counts s
  | .alignTimeout => Sys2Proof.Machine.execAlignTimeout s
  | .resetnAssert => Sys2Proof.Machine.execResetnAssert s
  | .resetnRelease => Sys2Proof.Machine.execResetnRelease s
  | .tapInstruction op => Sys2Proof.Machine.execTapInstruction op s
  | .ijtagInstrument x => Sys2Proof.Machine.execIjtagInstrument x s
  | .mpRefresh port high => Sys2Proof.Machine.execMpRefresh port high s
  | .fpTxRetry cycles => Sys2Proof.Machine.execFpTxRetry cycles s
  | .mgxLink port up => Sys2Proof.Machine.execMgxLink port up s
  | .powerUp => Sys2Proof.Machine.execPowerUp s

end Sys2Proof.Machine
end

