-- ==== Sys2Proof/Machine/Tick.lean ====
section
/-! DEFINITION. One TREF cycle with no command waiting: the counters of time, the buckets that fill, and what waits and is tried again (R340,
R371, R455, R456). -/
namespace Sys2Proof.Machine

/-- Time goes on by one TREF cycle (R455, R456). -/
def passTime (s : State) : State :=
  { s with time := { s.time with
      up := s.time.up + tbSecond / max 1 (reg s K.TREF_HZ),
      tb := if s.time.running then (s.time.tb + reg s K.TB_INCREMENT) % tbWrap else s.time.tb } }

/-- Bytes that a bucket gains from time t0 to t1, in nanoseconds since release: its rate in thousandths of the resource's peak, and for the
repair bucket a percentage of the repointer's (R300, R371, R372). -/
def bucketGain (s : State) (kind part res t0 t1 : Nat) : Nat :=
  let perSecond := if kind = 2 then repairPeak s * reg s K.RPT_RATE_PCT * 10 else resourcePeak s res * bucketRate s kind part res
  perSecond * t1 / 1000000 - perSecond * t0 / 1000000

/-- The depth of a bucket. -/
def depthOf (s : State) (kind part res : Nat) : Nat := if kind = 2 then 4 * 2 ^ 20 else bucketDepth s kind part res

/-- Every bucket fills; a full one is not listed (R371). -/
def fillBuckets (s : State) (t0 t1 : Nat) : State :=
  { s with tokens := s.tokens.filterMap (fun e =>
      let kind := e.1 / 65536
      let part := e.1 / 256 % 256
      let res := e.1 % 256
      let v := e.2 + bucketGain s kind part res t0 t1
      if depthOf s kind part res ≤ v then none else some (e.1, v)) }

/-- Add `n` nanoseconds to a counter as many times as `many` says. -/
def waits (s : State) (k many n : Nat) : State := if many * n = 0 then s else bump s k (many * n)

/-- Streams that satisfy `p`. -/
def countStreams (s : State) (p : Stream → Bool) : Nat := (s.tracker.streams.filter p).length

/-- Queues whose finished streams wait for their completion ring (R52, R64). -/
def cqWaits (s : State) : Nat :=
  ((List.range 64).filter (fun q => !cqFree s q && s.tracker.streams.any (fun x => decide (x.queue = q) && x.finish.isSome))).length

/-- Partitions that have reached a barrier that has not released. -/
def barrierWaits (s : State) (kind : Nat) : Nat :=
  ((List.range 16).filter (fun q => s.mixer.arrived.any (fun a => decide (a.1 = q ∧ a.2.1 = kind) && !s.mixer.released.contains a))).length

/-- An update waits for the repair of a brick of this block's own (R223). -/
def updateRepairs (s : State) (x : Stream) : Bool :=
  decide (x.d.opcode = 0x61) && x.finish.isNone && s.repairs.any (fun r =>
    decide (r.part = x.d.part ∧ r.lost = ownRank s x.d.part ∧ r.isDone = false) &&
      (match smapGet x.fetched paramKey with | some t => (operandRanges x (paramsOf t)).any (fun e => overlaps (brickName s r.part r.course) 16 e.1 e.2) | none => false))

/-- RDX's waits over n nanoseconds, once for each level at which a reduction waits (R191). -/
def countRdxWaits (s : State) (n : Nat) : State :=
  let ws := s.rdx.runs.map (runWaits s)
  (rangeFrom 1 12).foldl (fun s l =>
    let s := waits s (K.RDX_RECV_WAIT_NS (l - 1)) (b2n (ws.any (fun w => w.1.contains l))) n
    waits s (K.RDX_SEND_WAIT_NS (l - 1)) (b2n (ws.any (fun w => w.2.contains l))) n) s

/-- What waits for a tag is still wanted (R331). -/
def tagWaitLives (s : State) (u : ReqUse) : Bool :=
  match (streamUse u) with
  | some sid => (findStream s sid).any (fun x => x.finish.isNone)
  | none => true

/-- The counters of time waited that the model's state shows, over n nanoseconds (R64, R93, R174, R191, R228, R257, R276, R345, R418, R488). -/
def countWaits (s : State) (n : Nat) : State :=
  let s := waits s K.FP_LINK_DOWN_NS (b2n (!s.pins.fpUp)) n
  let s := waits s (K.TIER_IDLE_NS 0) 1 n
  let s := waits s (K.TIER_IDLE_NS 1) 1 n
  let s := waits s (K.TIER_IDLE_NS 2) (b2n (decide (s.fabric.reqs = []))) n
  let s := waits s K.STR_FULL_NS (b2n (!entryFree s 0 || !entryFree s 1)) n
  let s := waits s K.CQ_FULL_NS (cqWaits s) n
  let s := waits s K.TRG_FULL_NS (countStreams s (fun x => decide (x.d.opcode = 0x40 ∧ x.mark = 1) && x.finish.isNone)) n
  let s := waits s K.TRW_RET_WAIT_NS (countStreams s (fun x => decide (x.d.opcode = 0x61 ∧ x.mark = 2) && x.finish.isNone)) n
  let s := waits s K.TRW_REPAIR_WAIT_NS (countStreams s (updateRepairs s)) n
  let s := waits s K.RPT_DEGRADED_NS (countStreams s (fun x => x.finish.isNone && decide (x.degraded ≠ []))) n
  let s := waits s K.SEAL_BARRIER_NS (barrierWaits s 1) n
  let s := waits s K.COMMIT_BARRIER_NS (barrierWaits s 2) n
  let s := waits s K.COMMIT_HOLD_NS (countStreams s (fun x => decide (x.hold = 1) && x.finish.isNone)) n
  let s := waits s K.SNP_HOLD_NS (countStreams s (fun x => decide (x.hold = 2) && x.finish.isNone)) n
  let s := countRdxWaits s n
  if (freeTag s).isSome then s
  else
    let ws := s.fabric.tagWaits.filter (tagWaitLives s)
    waits (waits s (K.TIER_BOUND_NS 2) (b2n (ws.any (fun u => (streamUse u).isSome))) n) K.FP_TAG_WAIT_NS ws.length n

/-- What a station tries again until it succeeds: arriving requests that wait for a decode, broadcasts, ledger copies, encodes that have not begun, marks due in headers (R293, R296, R307, R308, R342). -/
def tryAgain (s : State) : State := (List.range 16).foldl (fun s q => copyTry (retryEncodes (remarkDue s q) q) q) (retryBcasts (retryStalled s))

/-- One TREF cycle. DESIGN CHOICE: log entry 6. -/
def tick (s : State) : State :=
  let t0 := upNs s
  let t := passTime s
  let t1 := upNs t
  let t := if t1 / 1000000000 = t0 / 1000000000 then t else lifeBump t (ltKey 1) 1
  if working t then tryAgain (countWaits (fillBuckets t t0 t1) (t1 - t0)) else t

/-- The step of an empty queue: one TREF cycle while RESETn is high. -/
def idle (s : State) : Host.Outcome State Fault Refusal := whenAlive s (tick s)

end Sys2Proof.Machine
end

