-- ==== Sys2Proof/Safety.lean ====
section
/-! DEFINITION. A safe run, and the words in which the statements speak: a stream that runs, a stream that has ended, what an
operation on stored lines may change, and what stands while RESETn is low. -/
namespace Sys2Proof.Machine

/-- An outcome that goes on. -/
def isNext : Host.Outcome State Fault Refusal → Bool
  | .next _ => true
  | .fault _ => false
  | .refused _ => false

/-- The step of `s` goes on to a next state. -/
def StepSafe (s : State) : Prop := ∃ t, step s = .next t

/-- Every stream's descriptor names one of the sixteen partitions. -/
abbrev PartsBounded (s : State) : Prop := ∀ x ∈ s.tracker.streams, x.d.part < 16

/-- Stream `x`, numbered `sid`, of an opcode and of one of the sixteen partitions, runs in a block whose stations work, and awaits no response of a
store. -/
abbrev Runs (s : State) (sid op : Nat) (x : Stream) : Prop := working s = true ∧ running s sid op = some x ∧ x.unacked = 0 ∧ x.d.part < 16

/-- Every stream of `s` but `sid` is in `t` as it was. -/
def OthersStand (s t : State) (sid : Nat) : Prop := ∀ j, j ≠ sid → findStream t j = findStream s j

/-- The stream `x` of `s` has ended in `t` with a status, a DETAIL and a number of tiles done (R53, R58): its record takes the next place in
the order in which records are written. -/
def Ended (s t : State) (x : Stream) (status detail tiles : Nat) : Prop :=
  (∃ y, findStream t x.id = some y ∧ y.finish = some s.tracker.nextFinish ∧ y.status = status ∧ y.detail = detail % 2 ^ 32 ∧
    y.tilesDone = tiles ∧ y.d = x.d ∧ y.queue = x.queue ∧ y.taken = true) ∧
  OthersStand s t x.id

/-- A register of areas 0x1000 to 0x6FFF other than those of the event ring: every setting and every state, no counter of events. -/
def stateKey (k : Nat) : Bool := decide (k < 0x700000) && !([K.EV_PRODUCER, K.EV_SEEN, K.EV_LOST].contains k)

/-- `t` is `s` but for what reading and writing stored lines changes: the lines, the counters and events of what was found, the buckets
drawn on, and the memory ports' verdicts used. -/
def OnlyStorage (s t : State) : Prop :=
  t = { s with regs := t.regs, mem := t.mem, safety := t.safety, life := t.life, tokens := t.tokens, verdicts := t.verdicts } ∧
  ∀ k, stateKey k = true → reg t k = reg s k

/-- What stands while RESETn is low (R410, R479, R490): every register at its default, SAFE_FAULT (1, 0), no stream, and nothing else of
the block's own but the peer table and the link delays (R344) and the stacks with HOM's copies in them. -/
def AtReset (s : State) : Prop :=
  s = { State.reset with
    pending := s.pending, pins := s.pins, mem := s.mem, fresh := s.fresh,
    homes := { State.reset.homes with words := s.homes.words, inits := s.homes.inits },
    fabric := { State.reset.fabric with peers := s.fabric.peers },
    barriers := { State.reset.barriers with delays := s.barriers.delays } } ∧
  s.pins.safeT = true ∧ s.pins.safeC = false ∧ s.mem.cells.all (fun e => decide (stackBase ≤ e.1)) = true

/-- The commands that act while RESETn is low: power, RESETn itself, the input pins and the test access port (R479, R480, R485, R486). -/
def actsInReset : Instr → Bool
  | .powerUp | .resetnAssert | .resetnRelease | .fpLinkUp _ | .mgxLink _ _ | .mpRefresh _ _ | .fpTxRetry _ | .tapInstruction _
  | .ijtagInstrument _ => true
  | _ => false

/-- The commands of the stations, of the fabric and of the host's tile ports: those that a station must work to take (R411, R490). The queue
channel, which answers with error, the writing of FAIL_SAFETY records and the mason's and the monitor's commands are not among them. -/
def stationCommand : Instr → Bool
  | .descriptorFetch _ | .fenceRelease _ | .nop _ | .stream _ | .abort _ | .homeBind _ | .homeUnbind _ | .move _ | .homeRead _
  | .wbFlush _ | .wbInvalidate _ | .wbFlushInvalidate _ | .hodOpen _ | .hodPush _ | .hodPushResume _ | .hodPrefetchFill _
  | .hodPop _ | .hodClose _ | .hodStatsPush _ | .hodStatsOrder _ | .hodStatsRead _ | .plbClose _ | .sivMerge _ | .sivGather _
  | .sivScatter _ | .sivDispatch _ | .sivReturn _ | .trgOpen _ | .trgAcc _ | .trgRowAdd _ | .trgDone _ | .trgRead _ | .trgClose _
  | .rdxReduce _ | .rdxNormLocal _ | .rdxGather _ | .rdxNorm _ | .trwLoadProgram _ | .trwUpdate _ | .mixSeal _ | .mixSealDone _
  | .mixCommit _ | .rptFetch _ | .rptGradRepair _ | .mixEncode _ | .snpBegin _ | .snpExport _ | .snpLedger _ | .snpEnd _
  | .snpRestoreBegin _ | .snpRestore _ | .snpRestoreEnd _ | .queueDrained _ | .hmInitDone _ | .rebuildBrick _ | .load _
  | .store _ | .flaggedStore _ | .atomic _ | .response _ | .wyBrickState _ | .wyBrickGradient _ | .wyAck _ | .wyResendReq _
  | .wyEncodeReq _ | .wyEncodeRetry _ | .wyLedger _ | .wyFence _ | .wyRepair _ | .wyRepairReq _ | .wyReady _ | .rdxOpen _
  | .rdxSegment _ | .rdxCredit _ | .rdxAbandon _ | .rdxNormPartial _ | .heartbeat _ | .hello _ | .echo _ | .echoReply _
  | .barrierArrive _ | .barrierRelease _ | .bcastData _ | .bcastResume _ | .bcastDone _ | .heartbeatTick | .peerSilent _
  | .requestTimeout _ | .flagTimeout _ _ _ | .deltaResend _ _ _ _ | .encodeReqResend _ _ _ | .versionRetry _ _ _
  | .mpResponse _ _ | .mpTimeout _ | .rdxStalled _ | .commitStalled _ | .barrierCountdownExpiry _ _ | .knownAnswerSlot _ _
  | .mortarVerify _ | .scrubLine | .scrLapLimit | .pacedRelease _ _ _ _ | .epInTile _ _ _ _ | .epOutTile _ => true
  | _ => false

/-- The `n` bytes of memory from address `a`, through the model's read of one byte. -/
def readBytes (m : Memory) (a n : Nat) : List Byte := (List.range n).map (fun i => readByte m (a + i))

/-- No byte of memory differs but those of the lines at the listed addresses. -/
def LinesStand (s t : State) (lines : List Nat) : Prop := ∀ a, (∀ l ∈ lines, a / 64 ≠ l / 64) → readByte t.mem a = readByte s.mem a

/-- `t` is `s` but for the registers listed. -/
def RegsOnly (s t : State) (ks : List Nat) : Prop := t = { s with regs := t.regs } ∧ ∀ k, k ∉ ks → reg t k = reg s k

/-- The run-time event counter `k`, 48 bits and the flag in bit 63, has counted `n` in `t` since `s`: at the end of its 48 bits bit 63 stays set with all of
them (R398). -/
def Counted (s t : State) (k n : Nat) : Prop :=
  reg s k < 2 ^ 48 ∨ 2 ^ 63 ≤ reg s k →
  reg t k = if 2 ^ 63 ≤ reg s k then reg s k else if reg s k + n < 2 ^ 48 then reg s k + n else 2 ^ 63 + (2 ^ 48 - 1)

/-- No stream of `s` has a number that the next acceptance would give again. -/
abbrev NumbersFresh (s : State) : Prop := ∀ x ∈ s.tracker.streams, x.id < s.tracker.nextId

/-- Every stream of `s` has a number of its own. -/
abbrev NumbersDiffer (s : State) : Prop := (s.tracker.streams.map Stream.id).Nodup

/-- Nothing waits that a tick would try again: no stalled request, no broadcast, no copy of a ledger, no encode to begin, no mark due in a header. -/
abbrev NothingRetried (s : State) : Prop :=
  s.fabric.stalled = [] ∧ s.bcasts = [] ∧ s.members.copyFrom = [] ∧ (∀ e ∈ s.mixer.encodes, e.begun = true) ∧ s.mixer.due = []

/-- A dictionary request on a path may write an entry: RESETn is high, the path reaches the dictionary, nothing bars the entry (R451), and
where it is a station's, the stations work. -/
abbrev Writable (s : State) (path : Path) (idx sub len : Nat) : Prop :=
  alive s = true ∧ dictUp s path = true ∧ writeGate s path idx sub len = 0 ∧
  (stationWrite idx sub = true → reg s K.START_STAGE = 5 ∧ reg s K.SAFE_STATE = 1)

/-- The 64 lines from `base` hold the data of tile `v` and the 16 bytes at offset `off` of the line at `ma` its metadata, with no line poisoned and
the tile check passing. -/
abbrev WholeTile (s : State) (base ma off : Nat) (v : Tile) : Prop :=
  v.data = readBytes s.mem base 4096 ∧ v.info = metaOf (readBytes s.mem (ma + off) 16) ∧ v.info.poison = 0 ∧ crc32c v.data = v.info.crc.toNat ∧
  (∀ j, j < 64 → markOf s.mem (base + 64 * j) = 0) ∧ markOf s.mem ma = 0

/-- Slot `k` of the yard holds tile `v` whole. -/
abbrev YardTile (s : State) (k : Nat) (v : Tile) : Prop := WholeTile s (yardAddr k 0) (yardMetaAddr k) (yardMetaOff k) v

/-- The tile at offset `o` of stack `p` is `v`, whole. -/
abbrev StackTile (s : State) (p o : Nat) (v : Tile) : Prop := WholeTile s (mpAddr (mpTile p o 0)) (metaLineAddr s p o) 0 v

/-- The lines of a yard slot and the line of its metadata; the same of a stack's tile. -/
def yardLines (k : Nat) : List Nat := yardMetaAddr k :: (List.range 64).map (yardAddr k)
def stackLines (s : State) (p o : Nat) : List Nat := metaLineAddr s p o :: (List.range 64).map (fun j => mpAddr (mpTile p o (64 * j)))

/-- Port `p` is online and completes its next transaction. -/
abbrev PortServes (s : State) (p : Nat) : Prop := portOnline s p = true ∧ smapGet s.verdicts p = none

/-- The map line of each of the names can be written in both copies of partition q's home map; and it can be read from copy A. -/
abbrev MapWrites (s : State) (q : Nat) (names : List Nat) : Prop :=
  ∀ n ∈ names, PortServes s ((reg s (K.HM_COPY_A q) + 64 * ((n - reg s (K.HM_FIRST q)) / 8)) / 2 ^ 44) ∧
    PortServes s ((reg s (K.HM_COPY_B q) + 64 * ((n - reg s (K.HM_FIRST q)) / 8)) / 2 ^ 44)
abbrev MapReads (s : State) (q : Nat) (names : List Nat) : Prop :=
  ∀ n ∈ names, PortServes s ((reg s (K.HM_COPY_A q) + (n - reg s (K.HM_FIRST q)) / 8 * 64) / 2 ^ 44) ∧
    mapLineReadable s (reg s (K.HM_COPY_A q) + (n - reg s (K.HM_FIRST q)) / 8 * 64) = true

/-- No entry of the home map changes but those of `n` names of partition q from `first`. -/
def HomesStand (s t : State) (q first n : Nat) : Prop :=
  ∀ k, ¬ (q * 2 ^ 48 + first ≤ k ∧ k < q * 2 ^ 48 + first + n) → smapGet t.homes.entries k = smapGet s.homes.entries k

/-- A homing stream stands at its beginning. -/
abbrev AtStart (x : Stream) : Prop := x.pos = 0 ∧ x.mark = 0 ∧ x.asked = [] ∧ x.ordinal = 0 ∧ x.fetched = []

/-- A tile of 4,096 bytes that carries its own CRC, with no line poisoned and its fields in their widths. -/
abbrev SoundTile (v : Tile) : Prop :=
  v.data.length = 4096 ∧ v.info.format < 16 ∧ v.info.valid < 2 ^ 13 ∧ v.info.poison = 0 ∧ crc32c v.data = v.info.crc.toNat

/-- Tiles leaving through EP for a stream, their ordinals from `first` on (R481). -/
def epTiles (x : Stream) (first : Nat) (l : List Tile) : List OutTile :=
  (List.range l.length).map (fun i =>
    { queue := x.queue, token := x.d.token, ordinal := first + i, tile := (l[i]?).getD (zeroTile 0), varied := x.varied, sid := x.id, who := whoOf x })

/-- The yard slot of the tile at position `n` from the bottom of a hod stack, where its segment lies in the yard (R116). -/
def HodYardTile (s : State) (h : HodStack) (n : Nat) (v : Tile) : Prop :=
  ∃ k, h.segs[n / 64]? = some (.yard k) ∧ YardTile s (hodBase s + 64 * k + n % 64) v

/-- A name of partition q is homed in the yard outside the write-back range, lies in no coded course and in no unbuilt brick, and its slot holds
tile `v` whole. -/
def ReadsYard (s : State) (q name : Nat) (v : Tile) : Prop :=
  isWbName s q name = false ∧ codedCourse s q name = none ∧ (∀ c, gradCourse s q name = some c → unbuilt s q c = false) ∧
  ∃ k, homeOf s q name = .yard k ∧ YardTile s k v

/-- A name of partition q can be written in the yard slot `k`: homed there outside the write-back range, and not in motion. -/
abbrev WritesYard (s : State) (q name k : Nat) : Prop :=
  isWbName s q name = false ∧ homeOf s q name = .yard k ∧ k < 522240 ∧ inMotion s.tracker.streams q name = false ∧ reg s K.FLIP_STATE ≠ 1

/-- Every tile of a stream's source has arrived through EP, sound. -/
abbrev SourceArrived (x : Stream) (n : Nat) : Prop := srcHop x.d = stEP ∧ x.inbox.length = n ∧ ∀ v ∈ x.inbox, SoundTile v

/-- The terms of ordinal `ord` that a layer holds of element `e`: +0 where it lists none (R164). -/
def termOf (l : Layer) (ord e : Nat) : Part := (smapGet ((smapGet l.terms e).getD []) ord).getD (leaf 0)

/-- `t` is `s` but for what sending packets changes: the fabric port's own state, the packets counted, and the buckets drawn on. -/
def OnlySent (s t : State) : Prop :=
  t = { s with regs := t.regs, fabric := t.fabric, tokens := t.tokens } ∧ ∀ k, stateKey k = true → reg t k = reg s k

/-- `t` is `s` but for what reading and writing stored lines and sending packets change. -/
def OnlyTraffic (s t : State) : Prop :=
  t = { s with regs := t.regs, mem := t.mem, safety := t.safety, life := t.life, tokens := t.tokens, verdicts := t.verdicts, fabric := t.fabric } ∧
  ∀ k, stateKey k = true → reg t k = reg s k

/-- A packet of this type passes the fabric port (R317, R319, R322). -/
abbrev Arrives (s : State) (p : Packet) (type : Nat) : Prop :=
  working s = true ∧ fpOpen s = true ∧ p.type = type ∧ p.hdrCrc.toNat = crc32c (hdrBytes p) ∧ p.dst = reg s K.FP_NODE_ID ∧ reg s K.FP_NODE_ID ≠ 0 ∧ (p.level = 3 ∨ p.level = 4)

/-- A wythe packet passes, of the map epoch in force and of the partition's wythe (R287, R320). -/
abbrev WytheArrives (s : State) (p : Packet) (type : Nat) : Prop :=
  Arrives s p type ∧ hasWythe s p.partition = true ∧ p.mapEpoch = reg s (K.MAP_EPOCH p.partition) ∧ wyId p = reg s (K.WYTHE_ID p.partition)

/-- No descriptor of the mixer of partition q waits that an arriving packet could wake. -/
abbrev NothingWakes (s : State) (q : Nat) : Prop := ∀ y ∈ s.tracker.streams, y.d.part = q → y.d.opcode ∉ [0x70, 0x71, 0x72, 0x75]

/-- Rank r of partition q can be sent to: FP is open, and the rank's entry `e` names a VALID window. -/
abbrev RankReached (s : State) (q r e : Nat) : Prop := fpOpen s = true ∧ memberEntry s q r = some e ∧ (windowOf s q (e % 256)).valid = true

/-- A wythe packet as it leaves for the rank whose member entry is `e` (R319, R323). -/
def toRank (s : State) (q e : Nat) (p : Packet) : Packet :=
  sealHdr { p with level := reg s (K.FP_LEVEL q), partition := (windowOf s q (e % 256)).part, dst := (windowOf s q (e % 256)).node,
                   mapEpoch := reg s (K.MAP_EPOCH q), src := reg s K.FP_NODE_ID }

/-- A name of partition q is homed in the yard, and its slot holds tile `v` whole. -/
def HomedYard (s : State) (q name : Nat) (v : Tile) : Prop := ∃ k, homeOf s q name = .yard k ∧ YardTile s k v

/-- `t` is `s` but for the management side, the abort code of the last answer and the counters. -/
def OnlyManaged (s t : State) : Prop :=
  t = { s with regs := t.regs, mgmt := t.mgmt, sdo := t.sdo } ∧ ∀ k, stateKey k = true → reg t k = reg s k

/-- A DMP request of this block's that it has not met before: its number is neither answered, nor 64 or more behind, nor one that still waits (R442,
R444). -/
abbrev FrameFresh (s : State) (f : DmpFrame) (type : Nat) : Prop :=
  alive s = true ∧ dictUp s .dmp = true ∧ frameOk s f type = true ∧ f.seq < 2 ^ 32 ∧ (clientOf s f.client).highest < 2 ^ 32 ∧
  (∀ a ∈ (clientOf s f.client).answers, a.1 ≠ f.seq) ∧ ((clientOf s f.client).answers = [] ∨ -64 < seqDiff f.seq (clientOf s f.client).highest) ∧
  ∀ w ∈ s.mgmt.waiting, ¬ (w.1 = f.seq ∧ w.2.client = f.client)

/-- The state in which a request is carried out: its frame counted, and its client the one last heard from (R445). -/
def heard (s : State) (f : DmpFrame) : State :=
  putClient (bump s (match f.port with | .mga => K.DMP_RX_A | .mgb => K.DMP_RX_B) 1) (clientOf s f.client)

/-- The response `o` to a frame is sent and recorded, and nothing else done in `t` since `u`. -/
def Answered (u t : State) (f : DmpFrame) (o : DmpOut) : Prop :=
  OnlyManaged u t ∧ t.mgmt.out = u.mgmt.out ++ [o] ∧ (f.seq, o) ∈ (clientOf t f.client).answers

/-- The commands that are DMP requests, with their types (R443). -/
def dmpCommands (f : DmpFrame) : List (Instr × Nat) :=
  [(.readReq f, 0x01), (.writeExp f, 0x02), (.writeInit f, 0x03), (.segment f, 0x04), (.segRead f, 0x05), (.describe f, 0x06)]

/-- A submission to the window is taken: EP is out of reset, the dictionary answers and no request is in progress (R450). -/
abbrev WindowFree (s : State) : Prop := alive s = true ∧ dictUp s .ep = true ∧ s.mgmt.busy = none

/-- The window's response block, and nothing else done in `t` since `u` but to the window's own transfer (R449). -/
def WindowShows (u t : State) (status total : Nat) (data : List Byte) (wseq : Nat) : Prop :=
  OnlyManaged u t ∧ t.sdo = status ∧ t.mgmt.busy = none ∧ t.mgmt.out = u.mgmt.out ∧ t.mgmt.clients = u.mgmt.clients ∧
  t.mgmt.answer = { status := status, bytes := data.length, total := total, data := data, wseq := wseq }

/-- The block has driven SAFE_FAULT in `t`, and the safe state's entries name the cause, the node, the time and since when results are suspect (R410,
R411). -/
def Faults (s t : State) (cause node since : Nat) : Prop :=
  reg t K.SAFE_STATE = 2 ∧ reg t K.SAF_CAUSE = cause ∧ reg t K.SAF_NODE = node ∧ reg t K.SAF_TIME = stamp s ∧ reg t K.SAF_SUSPECT_SINCE = since ∧
  t.pins.safeT = true ∧ t.pins.safeC = false

/-- EV_SEEN holds the event's code in `t` (R395). -/
def Seen (t : State) (code : Nat) : Prop := (reg t K.EV_SEEN).testBit code = true

/-- A response as it leaves (R319, R330): the request's level, partition and tag, to the block that sent it. -/
def answerPacket (s : State) (p : Packet) (status : Nat) (whole : Bool) (w4 w5 : Word64) (l : List Line) : Packet :=
  sealHdr { pkt0 with
    level := p.level, type := 0x08, whole := whole, partition := p.partition, src := reg s K.FP_NODE_ID, dst := p.src, tag := p.tag,
    status := status, lines := l.length, w4 := w4, w5 := w5, payload := l }

/-- No store of the packet's source to its partition is missing, and no flag or atomic waits for one (R327). -/
abbrev InOrder (s : State) (p : Packet) : Prop := s.fabric.flagged = [] ∧ (seqTrack s p.src p.partition).ahead = []

/-- The stores of the packet's source to its partition are applied up to and with the packet's, and no other source's number moves (R327). -/
def StoreApplied (s t : State) (p : Packet) : Prop :=
  seqTrack t p.src p.partition = { src := p.src, part := p.partition, next := (p.seq + 1) % 2 ^ 32, ahead := [] } ∧ t.fabric.flagged = [] ∧
  ∀ a b, ¬ (a = p.src ∧ b = p.partition) → seqTrack t a b = seqTrack s a b

/-- No stored line of a run of slots of the trough shows an error. -/
abbrev CleanLines (s : State) (place : List (Nat × Nat)) : Prop := ∀ e ∈ s.mem.marks, slotIndex (e.1 / 64) place = none

/-- Nobody waits for the run-time's atomic. -/
abbrev NoAtomicWaits (s : State) : Prop := s.fabric.heldAtomic = none ∧ s.mgmt.waiting = [] ∧ s.mgmt.busy = none

/-- A packet of a known peer, straight to it at level 3 (R319, R335). -/
def toPeer (s : State) (q node : Nat) (p : Packet) : Packet :=
  sealHdr { p with level := peerLevel s q p.type, partition := q, dst := node, src := reg s K.FP_NODE_ID }

/-- A packet of the tree as it leaves for a node (R319, R338). -/
def toNode (s : State) (q node : Nat) (p : Packet) : Packet :=
  sealHdr { p with level := reg s (K.FP_LEVEL q), partition := q, dst := node, src := reg s K.FP_NODE_ID }

/-- A packet of the tree arrives in a partition with a barrier group. -/
abbrev TreeArrives (s : State) (p : Packet) (type : Nat) : Prop := Arrives s p type ∧ reg s (K.BG_STATE p.partition) = 1

/-- The release of a barrier goes to every position below, with countdown `c` (R339). -/
def ReleasesSent (s t : State) (q kind e c : Nat) : Prop :=
  ∀ pos ∈ childrenOf s q, ∀ n, positionNode s q pos = some n →
    toNode s q n { pkt0 with type := 0x35, w4 := BitVec.ofNat 64 kind, w5 := BitVec.ofNat 64 (c % 2 ^ 32), w6 := BitVec.ofNat 64 e } ∈ t.fabric.out

/-- The payload of a packet comes whole, in one fragment of `n` lines, none of them poisoned (R321). -/
abbrev OneFragment (p : Packet) (n : Nat) : Prop := n ≤ fragLines p.level ∧ p.payload.length = n ∧ lineBad p.payload = []

/-- A WY_ACK to the node of rank r, where the member table gives it (R268, R320). -/
def AckSent (s t : State) (p : Packet) (code : Nat) : Prop :=
  let q := p.partition
  ∀ e, RankReached t q (wyRank p) e → bits e 47 16 = p.src →
    t.fabric.out = s.fabric.out ++ [toRank t q e { pkt0 with
      type := 0x11, w4 := wyWord s q (ownRank s q) (wyKind p) code, w5 := BitVec.ofNat 64 (wyCourse p % 2 ^ 44), w6 := BitVec.ofNat 64 (wyEpoch p) }]

end Sys2Proof.Machine
end

