-- ==== Sys2Proof/Certificates/Slice0/Obligations.lean ====
section
/-! DEFINITION. The statements. Each names the rules it formalises; where it rests on a choice of the model its docstring names the log
entry. -/
section Statements
open Sys2Proof Sys2Proof.Machine


/-- Step of a state with command c at the front of its queue is exec of c on the state with the queue's rest. -/
def Obligations.StepRunsFront : Prop :=
  ∀ (c : Instr) (rest : List Instr) (s : State), step { s with pending := c :: rest } = exec c { s with pending := rest }

/-- The step of an empty queue is one TREF cycle (log entry 1): while RESETn is low nothing happens; while it is high the queue stays empty, the
nanoseconds since release grow by one cycle of TREF, a timebase that runs grows by TB_INCREMENT modulo its width and another stands (R455, R456),
and where nothing waits that is tried again, all else stands but counters and the buckets that fill. -/
def Obligations.EmptyQueueTick : Prop :=
  ∀ s : State, s.pending = [] →
    (alive s = false → step s = .next s) ∧
    (alive s = true → (working s = true → NothingRetried s) → ∃ t, step s = .next t ∧
      t = { s with regs := t.regs, tokens := t.tokens, time := t.time } ∧
      t.time.up = s.time.up + tbSecond / max 1 (reg s K.TREF_HZ) ∧
      t.time.tb = (if s.time.running then (s.time.tb + reg s K.TB_INCREMENT) % tbWrap else s.time.tb) ∧
      (∀ k, k < 0x700000 → reg t k = reg s k))

/-- Every command goes on and leaves the queue of waiting commands alone, but for an instrument write to a yard slot that does not exist
while no job is attached (R67). -/
def Obligations.CommandsGoOn : Prop :=
  ∀ (c : Instr) (s : State),
    (∃ t, exec c s = .next t ∧ t.pending = s.pending) ∨
    (∃ slot line bytes, c = .ijtagInstrument (.writeLine slot line bytes) ∧ 524288 ≤ slot ∧ anyJob s = false ∧
      exec c s = .fault (.noSuchSlot slot))

/-- While RESETn is low or the supplies are off, every command but power, RESETn, the input pins and the test access port does nothing.
While a station does not work, because the firmware is not ready or the block is in the safe state, the commands of the stations and of
the fabric do nothing (R411): `stationCommand` lists them. -/
def Obligations.HeldCommandsDoNothing : Prop :=
  (∀ (c : Instr) (s : State), alive s = false → actsInReset c = false → exec c s = .next s) ∧
  (∀ (c : Instr) (s : State), working s = false → stationCommand c = true → exec c s = .next s)

/-- What stands at reset stands for as long as RESETn is low: every step keeps it. -/
def Obligations.ResetStateStands : Prop :=
  ∀ s t : State, (alive s = false → AtReset s) → step s = .next t → (alive t = false → AtReset t)

/-- The state right after reset is one that stands at reset, with every register at its default.
Where the manual gives a register no value at reset, its default is the model's choice: log entry 11. -/
def Obligations.ResetIsReset : Prop :=
  alive State.reset = false ∧ AtReset State.reset ∧ (∀ k, reg State.reset k = regDefault k) ∧ State.reset.mem.wf = true

/-- The safe state is left through RESETn or power alone: while RESETn stays high, every step from the safe state leads to the safe state
(R410, R411). -/
def Obligations.SafeStateLasts : Prop :=
  ∀ s t : State, alive s = true → reg s K.SAFE_STATE = 2 → step s = .next t → alive t = true → reg t K.SAFE_STATE = 2

/-- RESETN_ASSERT with the supplies present: every register takes its default, SAFE_FAULT is (1, 0), no work is left, the yard reads zero, the
stacks keep their bytes, and the queue of waiting commands and the driven inputs stand.
POWER_UP: the supplies are present, RESETn is low, the registers are at their defaults, the peer table and the link delays are empty
(R344), the yard reads zero, and every byte of the stacks is one that nothing has written since this power-up (R504).
What the stacks hold at power-on is free, as log entry 12 says.
RESETN_RELEASE with the supplies present and RESETn low: RESETn is high, START_STAGE is 1, the time since release is zero, LT_STARTS has counted,
and every other register and all else stand (R456, R490 step 1). -/
def Obligations.PowerAndReset : Prop :=
  (∀ s : State, s.pins.powered = true →
    ∃ t, exec .resetnAssert s = .next t ∧ AtReset t ∧ alive t = false ∧ t.pending = s.pending ∧ (∀ k, reg t k = regDefault k) ∧
      t.pins.safeT = true ∧ t.pins.safeC = false ∧ t.pins.fpUp = s.pins.fpUp ∧ t.pins.mga = s.pins.mga ∧ t.pins.mgb = s.pins.mgb ∧
      t.pins.refresh = s.pins.refresh ∧ (∀ a, a < stackBase → readByte t.mem a = 0) ∧
      (∀ a, stackBase ≤ a → readByte t.mem a = readByte s.mem a)) ∧
  (∀ s : State, ∃ t, exec .powerUp s = .next t ∧ AtReset t ∧ t.pins.powered = true ∧ t.pins.resetn = false ∧ t.pending = s.pending ∧
    t.fabric.peers = [] ∧ t.barriers.delays = [] ∧ t.homes.words = [] ∧
    (∀ a, a < stackBase → readByte t.mem a = 0) ∧
    (∀ a, stackBase ≤ a → readByte t.mem a = Config.freeStackByte (s.mem.gen + 1) a)) ∧
  (∀ s : State, s.pins.powered = true → s.pins.resetn = false →
    ∃ t, exec .resetnRelease s = .next t ∧ alive t = true ∧ reg t K.START_STAGE = 1 ∧ upNs t = 0 ∧
      reg t (ltKey 2) = min (reg s (ltKey 2) + 1) (2 ^ 64 - 1) ∧
      (∀ k, k ≠ K.START_STAGE → k ≠ ltKey 2 → reg t k = reg s k) ∧
      t = { s with pins := t.pins, time := t.time, regs := t.regs })

/-- The start-up sequence (R490): the boot ROM serves the dictionary at stage 2; FW_CONTROL starts the checks of an image at stage 3; an image
that fails a check leaves FW_STATUS 4 with the check's number and stage 2, one that passes leaves FW_STATUS 3 and stage 4 (R453); a self-test that
passes makes the block ready at stage 5, SAFE_STATE 1, SAFE_FAULT (0, 1), the yard zero and every run-time counter zero (R491). -/
def Obligations.StartUpSequence : Prop :=
  (∀ s : State, alive s = true → reg s K.ALIGN_DONE = 1 → reg s K.START_STAGE = 1 → reg s K.SAFE_STATE = 0 →
    ∃ t, exec .masonBoot s = .next t ∧ reg t K.START_STAGE = 2 ∧ t.mason.bare = true ∧ t.mem = s.mem) ∧
  (∀ (path : Path) (s : State), alive s = true → dictUp s path = true → s.mason.bare = true → s.mason.diag = false → reg s K.FW_STATUS = 1 →
      reg s K.SAFE_STATE = 0 →
    ∃ t, exec (.fwControl path) s = .next t ∧ reg t K.FW_STATUS = 2 ∧ reg t K.START_STAGE = 3 ∧ t.sdo = 0) ∧
  (∀ (bad : Bool) (s : State), alive s = true → s.mason.bare = true → reg s K.FW_STATUS = 2 → reg s K.SAFE_STATE = 0 →
    ∃ t, exec (.fwCheckDone bad) s = .next t ∧
      (imageRefused s.mason.image (reg s K.REVISION) bad = 0 → reg t K.FW_STATUS = 3 ∧ reg t K.START_STAGE = 4 ∧ t.mason.bare = false) ∧
      (imageRefused s.mason.image (reg s K.REVISION) bad ≠ 0 → reg t K.FW_STATUS = 4 ∧ reg t K.START_STAGE = 2 ∧
        reg t K.FW_REFUSED = imageRefused s.mason.image (reg s K.REVISION) bad ∧ t.mason.bare = true)) ∧
  (∀ s : State, alive s = true → reg s K.START_STAGE = 4 → reg s K.SAFE_STATE = 0 →
    ∃ t, exec (.selfTestDone [] none) s = .next t ∧ reg t K.START_STAGE = 5 ∧ reg t K.SAFE_STATE = 1 ∧ t.pins.safeT = false ∧ t.pins.safeC = true ∧
      (∀ a, a < stackBase → readByte t.mem a = 0) ∧ (∀ a, stackBase ≤ a → readByte t.mem a = readByte s.mem a) ∧
      (∀ k, 0x700000 ≤ k → k < 0x800000 → reg t k = regDefault k))

/-- The partition of a descriptor has four bits (R41): at reset no stream is accepted, and every step keeps every stream's descriptor in one of the
sixteen partitions. -/
def Obligations.PartitionsStayInRange : Prop :=
  PartsBounded State.reset ∧ ∀ s t : State, PartsBounded s → step s = .next t → PartsBounded t

/-- The queue channel (R482). WRITE_DESC of a ring whose queue is enabled and whose tile is homed in the yard stores the 64 bytes at that
position of the ring and answers; in every other case it changes nothing and answers with error. READ_COMPL answers the 16 bytes of a readable
position, and with error past the ring or where the line is poisoned or has no home in the yard. WRITE_INDEX writes CQ_CONSUMER, or DQ_PRODUCER; a
producer more than DQ_SIZE ahead of the consumer stops the queue in state 2 and counts (R51). While EP is in reset no command is answered (R360).
Q_STATE (R49, R50). A write of 1 with the rings' tiles homed in the yard and their sizes powers of two within range sets every index to zero and
the state to 1; while the state is not 0 it is refused, as are rings not homed, and sizes out of range. A write of 0 stops the queue: it reads 3
while a descriptor of it awaits its record, and 0 otherwise; QUEUE_DRAINED takes 3 to 0. Streams stand, and nothing is fetched while the state is not 1. -/
def Obligations.QueuesSetAndRead : Prop :=
  (∀ (q : Nat) (s : State), q < 64 → alive s = true →
    (epOpen s = false → ∀ (pos v : Nat) (line : List Byte) (consumer : Bool),
      ∀ c ∈ [Instr.writeDesc q pos line, .readCompl q pos, .writeIndex q consumer v], exec c s = .next { s with chan := .none }) ∧
    (epOpen s = true →
    (∀ (pos slot : Nat) (line : List Byte), working s = true → reg s (K.Q_STATE q) ≠ 0 → slot < 522240 → reg s K.FLIP_STATE ≠ 1 →
        slotOf s (qPart q) (reg s (K.DQ_BASE q) % 2 ^ 48 + pos % max 1 (reg s (K.DQ_SIZE q)) / 64) = some slot →
      ∃ t, exec (.writeDesc q pos line) s = .next t ∧ t.chan = .ok ∧
        readBytes t.mem (yardAddr slot (pos % max 1 (reg s (K.DQ_SIZE q)) % 64)) 64 = bytesAt line 0 64 ∧
        LinesStand s t (yardLines slot) ∧
        OnlyStorage { s with chan := .ok, tracker := { s.tracker with heads := t.tracker.heads } } t) ∧
    (∀ (pos : Nat) (line : List Byte), (working s = false ∨ reg s (K.Q_STATE q) = 0 ∨
        slotOf s (qPart q) (reg s (K.DQ_BASE q) % 2 ^ 48 + pos % max 1 (reg s (K.DQ_SIZE q)) / 64) = none) →
      exec (.writeDesc q pos line) s = .next { s with chan := .error }) ∧
    (∀ (pos : Nat) (b : List Byte), pos < reg s (K.CQ_SIZE q) → structBytes s (qPart q) (reg s (K.CQ_BASE q) % 2 ^ 48) (pos * 16) 16 = some b →
      ∃ t, exec (.readCompl q pos) s = .next t ∧ t.chan = .record b ∧ OnlyStorage { s with chan := .record b } t) ∧
    (∀ pos : Nat, (reg s (K.CQ_SIZE q) ≤ pos ∨ structBytes s (qPart q) (reg s (K.CQ_BASE q) % 2 ^ 48) (pos * 16) 16 = none) →
      ∃ t, exec (.readCompl q pos) s = .next t ∧ t.chan = .error ∧ OnlyStorage { s with chan := .error } t) ∧
    (∀ v : Nat, working s = true → ∃ t, exec (.writeIndex q true v) s = .next t ∧ t.chan = .ok ∧ reg t (K.CQ_CONSUMER q) = v % 2 ^ 32 ∧
      RegsOnly { s with chan := .ok } t [K.CQ_CONSUMER q]) ∧
    (∀ v : Nat, working s = true → ∃ t, exec (.writeIndex q false v) s = .next t ∧ t.chan = .ok ∧ reg t (K.DQ_PRODUCER q) = v % 2 ^ 32 ∧
      RegsOnly { s with chan := .ok, pace := t.pace, tracker := { s.tracker with heads := t.tracker.heads } } t [K.DQ_PRODUCER q, K.Q_STATE q, K.DQ_OVERRUN] ∧
      (if reg s (K.DQ_SIZE q) < (v % 2 ^ 32 + 2 ^ 32 - reg s (K.DQ_CONSUMER q)) % 2 ^ 32
        then reg t (K.Q_STATE q) = 2 ∧ Counted s t K.DQ_OVERRUN 1
        else reg t (K.Q_STATE q) = reg s (K.Q_STATE q) ∧ reg t K.DQ_OVERRUN = reg s K.DQ_OVERRUN)))) ∧
  (∀ (q : Nat) (path : Path) (s : State), q < 64 →
    let sizes := decide (isPow2 (reg s (K.DQ_SIZE q)) = true ∧ 64 ≤ reg s (K.DQ_SIZE q) ∧ reg s (K.DQ_SIZE q) ≤ 65536 ∧
      isPow2 (reg s (K.CQ_SIZE q)) = true ∧ 256 ≤ reg s (K.CQ_SIZE q) ∧ reg s (K.CQ_SIZE q) ≤ 65536)
    let homed := yardHomed s (qPart q) (reg s (K.DQ_BASE q) % 2 ^ 48) (ceilDiv (min (reg s (K.DQ_SIZE q)) 65536) 64) &&
      yardHomed s (qPart q) (reg s (K.CQ_BASE q) % 2 ^ 48) (ceilDiv (min (reg s (K.CQ_SIZE q)) 65536) 256)
    let indices := [K.DQ_PRODUCER q, K.DQ_CONSUMER q, K.CQ_PRODUCER q, K.CQ_CONSUMER q]
    (Writable s path (0x2010 + q) 9 1 → reg s (K.Q_STATE q) = 0 → homed = true → sizes = true →
      ∃ t, exec (.qStateEnable path q) s = .next t ∧ t.sdo = 0 ∧ reg t (K.Q_STATE q) = 1 ∧ (∀ k ∈ indices, reg t k = 0) ∧
        RegsOnly { s with sdo := 0, pace := t.pace, tracker := { s.tracker with heads := t.tracker.heads } } t (K.Q_STATE q :: indices)) ∧
    (Writable s path (0x2010 + q) 9 1 → (reg s (K.Q_STATE q) ≠ 0 ∨ homed = false) →
      exec (.qStateEnable path q) s = .next { s with sdo := 0x08000022 }) ∧
    (Writable s path (0x2010 + q) 9 1 → reg s (K.Q_STATE q) = 0 → homed = true → sizes = false →
      exec (.qStateEnable path q) s = .next { s with sdo := 0x06090030 }) ∧
    (Writable s path (0x2010 + q) 9 1 → reg s (K.Q_STATE q) ≠ 0 →
      ∃ t, exec (.qStateDisable path q) s = .next t ∧ t.sdo = 0 ∧
        reg t (K.Q_STATE q) = (if s.tracker.streams.any (fun x => decide (x.queue = q)) then 3 else 0) ∧
        RegsOnly { s with sdo := 0, tracker := { s.tracker with heads := t.tracker.heads } } t [K.Q_STATE q]) ∧
    (working s = true → reg s (K.Q_STATE q) = 3 → s.tracker.streams.any (fun x => decide (x.queue = q)) = false →
      ∃ t, exec (.queueDrained q) s = .next t ∧ reg t (K.Q_STATE q) = 0 ∧ RegsOnly s t [K.Q_STATE q]) ∧
    ((reg s (K.Q_STATE q) ≠ 1 ∨ epOpen s = false) → exec (.descriptorFetch q) s = .next s))

/-- DESCRIPTOR_FETCH of a queue whose head may be taken and was not rewritten (R47, R56, R58, R365): DQ_CONSUMER advances by one; a descriptor
that a check refuses is counted, and has no effect but the record that awaits its place with the check's status and DETAIL; one that passes takes a
tracker entry, counted in STR_ACCEPTED, as it stands in the ring, and one with FENCE waits while the queue has any earlier descriptor. -/
def Obligations.DescriptorFetched : Prop :=
  ∀ (q : Nat) (b : List Byte) (s : State), q < 64 → working s = true → epOpen s = true → headReady s q = true → headFirst s q = true →
      smapGet s.tracker.heads q = none → headBytes s q = some b → NumbersFresh s →
    (∀ status detail, descRefuses (passHead (headVersion s q).1 q) q (descOf b) = some (status, detail) →
      ∃ t x, exec (.descriptorFetch q) s = .next t ∧ reg t (K.DQ_CONSUMER q) = (reg s (K.DQ_CONSUMER q) + 1) % 2 ^ 32 ∧ Counted s t K.STR_REFUSED 1 ∧
        t.tracker.streams = s.tracker.streams ++ [x] ∧ x.queue = q ∧ x.d = descOf b ∧ x.taken = false ∧ x.status = status ∧
        x.detail = detail % 2 ^ 32 ∧ x.tilesDone = 0 ∧ x.finish = some s.tracker.nextFinish ∧
        t = { s with regs := t.regs, mem := t.mem, safety := t.safety, life := t.life, tracker := t.tracker } ∧
        (∀ k, stateKey k = true → k ≠ K.DQ_CONSUMER q → reg t k = reg s k)) ∧
    (descRefuses (passHead (headVersion s q).1 q) q (descOf b) = none → (descOf b).opcode < 0x40 →
      ∃ t x, exec (.descriptorFetch q) s = .next t ∧ reg t (K.DQ_CONSUMER q) = (reg s (K.DQ_CONSUMER q) + 1) % 2 ^ 32 ∧ Counted s t K.STR_ACCEPTED 1 ∧
        findStream t s.tracker.nextId = some x ∧ x.queue = q ∧ x.d = descOf b ∧ x.taken = true ∧ x.finish = none ∧ x.tilesDone = 0 ∧
        x.fenceWait = ((descOf b).fence && s.tracker.streams.any (fun y => decide (y.queue = q))) ∧
        t.tracker.nextId = s.tracker.nextId + 1)

/-- NOP completes with COMPLETED and DETAIL 0 (R44), and nothing but its own end happens. FENCE_RELEASE frees a stream whose earlier descriptors of
the queue all have their records (R58); while one has none the stream stays as it is.
ABORT (R60 to R62): with no match it ends with ABORT_NO_MATCH; with matches that cannot be aborted alone it ends with REJ_NOT_ABORTABLE, their
number in DETAIL; a match that runs is stopped with status ABORTED and DETAIL 0, counted in ABORTS_WON, and the ABORT completes with TILES_DONE 1; a
match that has finished before completes as it was, counted in ABORTS_LOST. -/
def Obligations.QueueCommands : Prop :=
  ((∀ (sid : Nat) (x : Stream) (s : State), Runs s sid 0x00 x →
    ∃ t, exec (.nop sid) s = .next t ∧ Ended s t x 0 0 x.tilesDone ∧ t = { s with tracker := t.tracker }) ∧
  (∀ (sid : Nat) (x : Stream) (s : State), working s = true → findStream s sid = some x → x.taken = true → x.fenceWait = true →
    (s.tracker.streams.all (fun y => !decide (y.queue = x.queue ∧ y.id < x.id)) = true →
      ∃ t, exec (.fenceRelease sid) s = .next t ∧ findStream t sid = some { x with fenceWait := false } ∧ OthersStand s t sid ∧
        t = { s with tracker := t.tracker }) ∧
    (s.tracker.streams.any (fun y => decide (y.queue = x.queue ∧ y.id < x.id)) = true → exec (.fenceRelease sid) s = .next s))) ∧
  (∀ (sid : Nat) (x : Stream) (s : State), Runs s sid 0x0F x →
    (x.asked = [] → ∃ t, exec (.abort sid) s = .next t ∧ Ended s t x 2 0 0 ∧ t = { s with tracker := t.tracker }) ∧
    (x.asked ≠ [] → x.asked.all (fun m => decide (m % 2 = 0)) = true →
      ∃ t, exec (.abort sid) s = .next t ∧ Ended s t x 0x1D x.asked.length 0 ∧ t = { s with tracker := t.tracker }) ∧
    (∀ y : Stream, y.id ≠ sid → x.asked = [2 * y.id + 1] → findStream s y.id = some y → y.finish = none → y.closing = false →
        y.d.opcode < 0x20 → (∀ r ∈ s.rdx.runs, r.sid ≠ y.id ∧ ∃ z, findStream s r.sid = some z ∧ z.finish = none) →
      ∃ t z w, exec (.abort sid) s = .next t ∧ findStream t y.id = some z ∧ z.status = 1 ∧ z.detail = 0 ∧ z.finish = some s.tracker.nextFinish ∧
        z.tilesDone = y.tilesDone ∧ findStream t sid = some w ∧ w.status = 0 ∧ w.detail = 0 ∧ w.tilesDone = 1 ∧
        w.finish = some (s.tracker.nextFinish + 1) ∧ Counted s t K.ABORTS_WON 1 ∧
        (∀ j, j ≠ sid → j ≠ y.id → findStream t j = findStream s j) ∧ RegsOnly { s with tracker := t.tracker } t [K.ABORTS_WON]) ∧
    (∀ y : Stream, y.id ≠ sid → x.asked = [2 * y.id + 1] → findStream s y.id = some y → y.finish.isSome = true →
      ∃ t, exec (.abort sid) s = .next t ∧ Ended s t x 2 0 0 ∧ Counted s t K.ABORTS_LOST 1 ∧
        RegsOnly { s with tracker := t.tracker } t [K.ABORTS_LOST]))

/-- COMPLETION_RECORD, where the queue has finished streams and its completion ring a free position (R52 to R54): the stream that finished first
leaves the tracker, and its record is written at CQ_PRODUCER with the phase bit, its token, status, tiles done and DETAIL; CQ_PRODUCER advances; no
other stream changes. With no free position nothing happens. -/
def Obligations.RecordWritten : Prop :=
  ∀ (q : Nat) (x : Stream) (s : State), q < 64 → working s = true → firstFinished s q = some x → x.d.opcode ≠ 0x0F →
    (∀ slot, cqFree s q = true → slot < 522240 → reg s K.FLIP_STATE ≠ 1 → x.status ≠ 1 →
        slotOf s (qPart q) (reg s (K.CQ_BASE q) % 2 ^ 48 + reg s (K.CQ_PRODUCER q) % max 1 (reg s (K.CQ_SIZE q)) / 256) = some slot →
      ∃ t, exec (.completionRecord q) s = .next t ∧ reg t (K.CQ_PRODUCER q) = (reg s (K.CQ_PRODUCER q) + 1) % 2 ^ 32 ∧
        t.tracker.streams = s.tracker.streams.filter (fun y => decide (y.id ≠ x.id)) ∧
        readBytes t.mem (yardAddr slot (reg s (K.CQ_PRODUCER q) % max 1 (reg s (K.CQ_SIZE q)) / 4 % 64) +
            reg s (K.CQ_PRODUCER q) % max 1 (reg s (K.CQ_SIZE q)) % 4 * 16) 16 =
          natLe 4 (if x.tokenZero then 0 else x.d.token) ++
          natLe 4 (x.status % 256 + q * 256 + b2n x.varied * 2 ^ 14 + b2n x.poison * 2 ^ 15 +
            (1 + reg s (K.CQ_PRODUCER q) / max 1 (reg s (K.CQ_SIZE q))) % 2 * 2 ^ 16) ++
          natLe 4 x.tilesDone ++ natLe 4 x.detail ∧
        LinesStand s t (yardLines slot) ∧
        (∀ k, stateKey k = true → k ≠ K.CQ_PRODUCER q → k ≠ K.Q_EVENT q → k ≠ K.C0_MAX_NS → reg t k = reg s k)) ∧
    (cqFree s q = false → exec (.completionRecord q) s = .next s)

/-- STREAM with the route EP to EP, no conversion and every tile arrived and clean: the tiles leave through EP in ascending ordinal under the
stream's token (R45, R481), the stream completes with DETAIL 0 and all its tiles done, and memory and homes stand. -/
def Obligations.StreamThroughEp : Prop :=
  ∀ (sid : Nat) (x : Stream) (s : State), Runs s sid 0x01 x → routeOf x.d = [stEP, stEP] → x.d.format = x.d.outFormat → x.pos = 0 → x.tilesDone = 0 →
      x.inbox.length = x.d.count → (∀ t ∈ x.inbox, t.info.poison = 0) →
    ∃ t, exec (.stream sid) s = .next t ∧ Ended s t x 0 0 x.d.count ∧
      t.epOut = s.epOut ++ epTiles x 0 x.inbox ∧
      t = { s with regs := t.regs, tokens := t.tokens, tracker := t.tracker, epOut := t.epOut }

/-- HOME_BIND and HOME_UNBIND (R80 to R82) in a partition without a wythe map, past their REJ checks, the map's copies at work. A bind of unmapped
names to a stack or a peer gives name i the home at offset i from the one named; a bind of one unmapped name to the yard gives it the slot that the
allocation finds, filled with a zero tile of the descriptor's format; an unbind leaves every name without a home. They complete with DETAIL 0; no other
entry of the map changes.
HOME_READ of up to 512 names into a tile homed in the yard (R81): the tile holds the names' home entries, eight bytes each, and zeros, as a RAW
tile; one tile is done; the map stands. -/
def Obligations.HomesBound : Prop :=
  (∀ (sid : Nat) (x : Stream) (s : State), AtStart x → hasWythe s x.d.part = false → homReject s x = none →
      (∀ i, i < x.d.count → hmCovers s x.d.part (x.d.src + i) = true) →
      MapWrites s x.d.part (rangeFrom x.d.src x.d.count) → MapReads s x.d.part (rangeFrom x.d.src x.d.count) →
    (Runs s sid 0x10 x → (x.d.arg % 4 = 1 ∨ x.d.arg % 4 = 2) → x.d.scalar % 2 ^ 40 + x.d.count ≤ 2 ^ 40 →
        (∀ i, i < x.d.count → entryOf s x.d.part (x.d.src + i) = 3) →
      ∃ t, exec (.homeBind sid) s = .next t ∧ Ended s t x 0 0 x.tilesDone ∧
        (∀ i, i < x.d.count → homeOf t x.d.part (x.d.src + i) = targetLoc x.d i) ∧ HomesStand s t x.d.part x.d.src x.d.count ∧
        t = { s with homes := t.homes, tracker := t.tracker }) ∧
    (∀ k : Nat, Runs s sid 0x10 x → x.d.arg % 4 = 0 → x.d.count = 1 → entryOf s x.d.part x.d.src = 3 → allocSlots s 1 = [k] → k < 522240 →
        x.d.format < 16 → reg s K.FLIP_STATE ≠ 1 →
      ∃ t, exec (.homeBind sid) s = .next t ∧ Ended s t x 0 0 x.tilesDone ∧ homeOf t x.d.part x.d.src = .yard k ∧
        YardTile t k (zeroTile x.d.format) ∧ LinesStand s t (yardLines k) ∧ HomesStand s t x.d.part x.d.src 1 ∧
        OnlyStorage { s with homes := t.homes, tracker := t.tracker } t) ∧
    (Runs s sid 0x11 x → (∀ i, i < x.d.count → movingElsewhere s x (x.d.src + i) = false) →
      ∃ t, exec (.homeUnbind sid) s = .next t ∧ Ended s t x 0 0 x.tilesDone ∧
        (∀ i, i < x.d.count → homeOf t x.d.part (x.d.src + i) = .none) ∧ HomesStand s t x.d.part x.d.src x.d.count ∧
        t = { s with homes := t.homes, tracker := t.tracker })) ∧
  (∀ (sid k : Nat) (x : Stream) (s : State), Runs s sid 0x13 x → AtStart x → homReject s x = none → 0 < x.d.count → x.d.count ≤ 512 →
      MapReads s x.d.part (rangeFrom x.d.src x.d.count) → isWbName s x.d.part x.d.dst = false → homeOf s x.d.part x.d.dst = .yard k → k < 522240 →
      inMotion s.tracker.streams x.d.part x.d.dst = false → reg s K.FLIP_STATE ≠ 1 →
    ∃ t, exec (.homeRead sid) s = .next t ∧ Ended s t x 0 0 (x.tilesDone + 1) ∧
      YardTile t k (mkTile ((List.range x.d.count).flatMap (fun i => natLe 8 (entryOf s x.d.part (x.d.src + i))) ++ zeros (4096 - 8 * x.d.count)) 0
        (8 * x.d.count) 0) ∧
      LinesStand s t (yardLines k) ∧ t.homes.entries = s.homes.entries ∧ OnlyStorage { s with homes := t.homes, tracker := t.tracker } t)

/-- MOVE of one tile from the yard to a stack (R81, R83, R85): its home becomes the one named, which holds the tile whole with its metadata; DETAIL
counts one tile moved; no byte of memory but those of the new home and no other entry of the map changes. -/
def Obligations.TileMoved : Prop :=
  ∀ (sid k : Nat) (v : Tile) (x : Stream) (s : State), Runs s sid 0x12 x → AtStart x → hasWythe s x.d.part = false → homReject s x = none →
      x.d.count = 1 → x.d.arg % 4 = 1 → MapWrites s x.d.part [x.d.src] → PortServes s (bits x.d.arg 5 2) → movingElsewhere s x x.d.src = false →
      smapHas s.homes.awayOut (x.d.part * 2 ^ 48 + x.d.src) = false →
      homeOf s x.d.part x.d.src = .yard k → YardTile s k v → reg s K.FLIP_STATE ≠ 1 →
      metaLineAddr s (bits x.d.arg 5 2) (x.d.scalar % 2 ^ 40) / 4096 ≠ mpAddr (mpTile (bits x.d.arg 5 2) (x.d.scalar % 2 ^ 40) 0) / 4096 →
    ∃ t, exec (.move sid) s = .next t ∧ Ended s t x 0 1 x.tilesDone ∧
      homeOf t x.d.part x.d.src = .stack (bits x.d.arg 5 2) (x.d.scalar % 2 ^ 40) ∧
      StackTile t (bits x.d.arg 5 2) (x.d.scalar % 2 ^ 40) v ∧
      LinesStand s t (stackLines s (bits x.d.arg 5 2) (x.d.scalar % 2 ^ 40)) ∧ HomesStand s t x.d.part x.d.src 1 ∧
      OnlyStorage { s with homes := t.homes, tracker := t.tracker } t

/-- WB_FLUSH, WB_INVALIDATE and WB_FLUSH_INVALIDATE of one cached dirty tile (R88): a flush writes it to its MP address with its metadata, counts it
and DETAIL 1; an invalidation drops it, counting what it discards, and writes nothing. A flush alone keeps the tile in the cache, clean, and writes only a tile that was dirty at its acceptance. A name outside the
range ends the stream with REJ_WB_RANGE. -/
def Obligations.WriteBackCache : Prop :=
  ∀ (sid : Nat) (v : Tile) (y : WbTile) (x : Stream) (s : State),
    let p := wbPhys s x.d.part x.d.src / 2 ^ 44
    let o := wbPhys s x.d.part x.d.src % 2 ^ 44 / 4096
    (x.d.count = 1 → isWbName s x.d.part x.d.src = true → wbFind s x.d.part x.d.src = some y → y.dirty = true →
      (Runs s sid 0x18 x → x.d.src ∈ x.asked → PortServes s p → YardTile s y.slot v → reg s K.FLIP_STATE ≠ 1 → metaLineAddr s p o / 4096 ≠ mpAddr (mpTile p o 0) / 4096 →
        ∃ t, exec (.wbFlush sid) s = .next t ∧ Ended s t x 0 1 x.tilesDone ∧ StackTile t p o v ∧ LinesStand s t (stackLines s p o) ∧
          wbFind t x.d.part x.d.src = some { y with dirty := false } ∧ Counted s t K.WB_WRITEBACKS 1 ∧
          OnlyStorage { s with wb := t.wb, tracker := t.tracker } t) ∧
      (Runs s sid 0x18 x → x.d.src ∉ x.asked → ∃ t, exec (.wbFlush sid) s = .next t ∧ Ended s t x 0 0 x.tilesDone ∧ t = { s with tracker := t.tracker }) ∧
      (Runs s sid 0x1A x → PortServes s p → YardTile s y.slot v → reg s K.FLIP_STATE ≠ 1 → metaLineAddr s p o / 4096 ≠ mpAddr (mpTile p o 0) / 4096 →
        ∃ t, exec (.wbFlushInvalidate sid) s = .next t ∧ Ended s t x 0 1 x.tilesDone ∧ StackTile t p o v ∧ LinesStand s t (stackLines s p o) ∧
          wbFind t x.d.part x.d.src = none ∧ Counted s t K.WB_WRITEBACKS 1 ∧ reg t K.WB_DISCARDED = reg s K.WB_DISCARDED ∧
          OnlyStorage { s with wb := t.wb, tracker := t.tracker } t) ∧
      (Runs s sid 0x19 x →
        ∃ t, exec (.wbInvalidate sid) s = .next t ∧ Ended s t x 0 0 x.tilesDone ∧ wbFind t x.d.part x.d.src = none ∧ Counted s t K.WB_DISCARDED 1 ∧
          (∀ q n, ¬ (q = x.d.part ∧ n = x.d.src) → wbFind t q n = wbFind s q n) ∧
          RegsOnly { s with wb := t.wb, tracker := t.tracker } t [K.WB_DISCARDED])) ∧
    (0 < x.d.count → isWbName s x.d.part x.d.src = false →
      (Runs s sid 0x18 x → ∃ t, exec (.wbFlush sid) s = .next t ∧ Ended s t x 0x41 0 x.tilesDone ∧ t = { s with tracker := t.tracker }) ∧
      (Runs s sid 0x19 x → ∃ t, exec (.wbInvalidate sid) s = .next t ∧ Ended s t x 0x41 0 x.tilesDone ∧ t = { s with tracker := t.tracker }) ∧
      (Runs s sid 0x1A x → ∃ t, exec (.wbFlushInvalidate sid) s = .next t ∧ Ended s t x 0x41 0 x.tilesDone ∧ t = { s with tracker := t.tracker }))

/-- HOD_OPEN of a stack that is not open opens it empty for the descriptor's partition; of an open one it ends with status 0x49 and the owner in
DETAIL. HOD_CLOSE of a stack open for the partition closes it, its tiles in DETAIL; of any other it ends with status 0x48 and the stack in DETAIL
(R121, R122). Each waits for earlier descriptors of the stack (R123). -/
def Obligations.HodOpensAndCloses : Prop :=
  ∀ (sid : Nat) (x : Stream) (s : State),
    (Runs s sid 0x20 x → hodTurn s x = true → hodStack s (x.d.arg % 32) = none →
      ∃ t, exec (.hodOpen sid) s = .next t ∧ Ended s t x 0 0 x.tilesDone ∧
        t.hod = s.hod ++ [{ num := x.d.arg % 32, part := x.d.part, draining := popWaits s (x.d.arg % 32) x.d.part, recs := [], segs := [], stalled := none }] ∧
        t = { s with hod := t.hod, tracker := t.tracker }) ∧
    (∀ h, Runs s sid 0x20 x → hodTurn s x = true → hodStack s (x.d.arg % 32) = some h →
      ∃ t, exec (.hodOpen sid) s = .next t ∧ Ended s t x 0x49 h.part x.tilesDone ∧ t = { s with tracker := t.tracker }) ∧
    (∀ h, Runs s sid 0x23 x → hodTurn s x = true → hodStack s (x.d.arg % 32) = some h → h.part = x.d.part →
      ∃ t, exec (.hodClose sid) s = .next t ∧ Ended s t x 0 (hodTiles h) x.tilesDone ∧
        t.hod = s.hod.filter (fun g => decide (g.num ≠ x.d.arg % 32)) ∧ t = { s with hod := t.hod, tracker := t.tracker }) ∧
    (Runs s sid 0x23 x → hodTurn s x = true → (∀ h, hodStack s (x.d.arg % 32) = some h → h.part ≠ x.d.part) →
      ∃ t, exec (.hodClose sid) s = .next t ∧ Ended s t x 0x48 (x.d.arg % 32) x.tilesDone ∧ t = { s with tracker := t.tracker }) ∧
    ((Runs s sid 0x20 x → hodTurn s x = false → exec (.hodOpen sid) s = .next s) ∧
      (Runs s sid 0x23 x → hodTurn s x = false → exec (.hodClose sid) s = .next s))

/-- HOD_PUSH and HOD_STATS_PUSH of the last tile of a push, the tile arrived and its stack's turn come (R116, R119, R121, R122): with room in the
top segment a new record of one tile lies on top, and the yard holds the tile whole; HOD_PUSH_RESUME of either stalled push, once a yard segment is
free, takes it, stores the tile in the record on top, and counts the stall's time. The stream completes with DETAIL 0. -/
def Obligations.HodPushed : Prop :=
  ∀ (sid k : Nat) (v : Tile) (h : HodStack) (x : Stream) (s : State),
      hodTurn s x = true → hodStack s (x.d.arg % 32) = some h → h.part = x.d.part → x.inbox = [v] → x.d.count = x.pos + 1 → SoundTile v →
      reg s K.PLB_MODE = 0 → reg s K.FLIP_STATE ≠ 1 → hodBase s + 64 * k + 63 < 522240 →
    (∀ stats : Bool, Runs s sid (if stats then 0x24 else 0x21) x → x.mark = 0 → h.recs.length < 65536 → h.stalled = none →
        hodTiles h < 64 * h.segs.length → h.segs[hodTiles h / 64]? = some (.yard k) →
      ∃ t, exec (if stats then .hodStatsPush sid else .hodPush sid) s = .next t ∧ Ended s t x 0 0 (x.tilesDone + 1) ∧
        hodStack t (x.d.arg % 32) = some { h with
          recs := { tag := hodTag x.d, format := x.d.format, width := if stats then 1 else max 1 (bits x.d.scalar 63 48), tiles := 1, stats := stats } :: h.recs,
          draining := popWaits s (x.d.arg % 32) x.d.part } ∧
        YardTile t (hodBase s + 64 * k + hodTiles h % 64) v ∧ LinesStand s t (yardLines (hodBase s + 64 * k + hodTiles h % 64)) ∧
        Counted s t K.HOD_PUSHED 1 ∧ (∀ j, j ≠ x.d.arg % 32 → hodStack t j = hodStack s j) ∧
        OnlyStorage { s with hod := t.hod, tracker := t.tracker } t) ∧
    (∀ (op t0 : Nat) (r : HodRec) (rest : List HodRec), (op = 0x21 ∨ op = 0x24) → Runs s sid op x → x.mark = 1 → h.recs = r :: rest →
        h.stalled = some t0 → hodTiles h = 64 * h.segs.length → freeSeg (yardSegsUsed s) (hodYardSegs s) = some k →
      ∃ t, exec (.hodPushResume sid) s = .next t ∧ Ended s t x 0 0 (x.tilesDone + 1) ∧
        hodStack t (x.d.arg % 32) = some { h with recs := { r with tiles := r.tiles + 1 } :: rest, segs := h.segs ++ [.yard k], stalled := none } ∧
        YardTile t (hodBase s + 64 * k) v ∧ LinesStand s t (yardLines (hodBase s + 64 * k)) ∧
        Counted s t K.HOD_PUSHED 1 ∧ Counted s t K.HOD_FULL_NS (upNs s - t0) ∧ (∀ j, j ≠ x.d.arg % 32 → hodStack t j = hodStack s j) ∧
        OnlyStorage { s with hod := t.hod, tracker := t.tracker } t)

/-- HOD_PREFETCH_FILL of a draining stack of two segments, the lower one in the region and a yard segment free (R118): the 64 tiles of the lower
segment lie whole in the yard segment, which takes its place; the fill is counted. A stack that is not draining is left alone.
HOD_POP of a record that matches, and HOD_STATS_READ of statistics within the top record, their tiles whole in the yard (R121 to R126): the tiles
leave through EP in the order of R125, turned about where TRANSPOSE is set, the tiles read from the row that SCALAR names on, 512 rows in each, and no byte of memory changes. A pop takes the record off the stack, which
drains, and gives back the segments it no longer needs; a read leaves the stack as it is. -/
def Obligations.HodReadBack : Prop :=
  (∀ (stack j k : Nat) (g : Seg) (v : Nat → Tile) (h : HodStack) (s : State), working s = true → hodStack s stack = some h →
    (h.draining = false → exec (.hodPrefetchFill stack) s = .next s) ∧
    (h.draining = true → h.segs = [.region j, g] → 1 ≤ reg s K.HOD_PREFETCH → freeSeg (yardSegsUsed s) (hodYardSegs s) = some k →
        hodBase s + 64 * k + 63 < 522240 → reg s K.FLIP_STATE ≠ 1 →
        (∀ i, i < 64 → ∃ p o, segLoc s (.region j) i = .stack p o ∧ PortServes s p ∧ StackTile s p o (v i)) →
      ∃ t, exec (.hodPrefetchFill stack) s = .next t ∧ hodStack t stack = some { h with segs := [.yard k, g] } ∧
        (∀ i, i < 64 → YardTile t (hodBase s + 64 * k + i) (v i)) ∧ Counted s t K.HOD_FILLS 1 ∧ t.tracker = s.tracker ∧
        (∀ a, stackBase ≤ a → readByte t.mem a = readByte s.mem a) ∧ OnlyStorage { s with hod := t.hod } t)) ∧
  (∀ (sid : Nat) (v : Nat → Tile) (r : HodRec) (rest : List HodRec) (h : HodStack) (x : Stream) (s : State),
      hodTurn s x = true → hodStack s (x.d.arg % 32) = some h → h.part = x.d.part → h.recs = r :: rest →
    (Runs s sid 0x22 x → popMismatch x.d r = none →
        (∀ p ∈ popOrder x.d.transpose r.tiles r.width, HodYardTile s h (hodTiles h - r.tiles + p) (v p)) →
      ∃ t, exec (.hodPop sid) s = .next t ∧ Ended s t x 0 0 (x.tilesDone + (popOrder x.d.transpose r.tiles r.width).length) ∧
        t.epOut = s.epOut ++ epTiles x x.tilesDone ((popOrder x.d.transpose r.tiles r.width).map (fun p =>
          if x.d.transpose then transposeTile (v p) else v p)) ∧
        hodStack t (x.d.arg % 32) = some (trimSegs { h with recs := rest, draining := true }) ∧ Counted s t K.HOD_POPPED r.tiles ∧
        t.mem = s.mem ∧ (∀ j, j ≠ x.d.arg % 32 → hodStack t j = hodStack s j) ∧
        OnlyStorage { s with hod := t.hod, epOut := t.epOut, tracker := t.tracker } t) ∧
    (Runs s sid 0x26 x → r.stats = true → r.tag = hodTag x.d → x.d.scalar % 2 ^ 23 + 512 * x.d.count ≤ 512 * r.tiles →
        (∀ p, p < x.d.count + b2n (decide (x.d.scalar % 512 ≠ 0)) →
          HodYardTile s h (hodTiles h - r.tiles + x.d.scalar % 2 ^ 23 / 512 + p) (v p)) →
      ∃ t, exec (.hodStatsRead sid) s = .next t ∧ Ended s t x 0 0 (x.tilesDone + x.d.count) ∧
        t.epOut = s.epOut ++ epTiles x x.tilesDone ((List.range x.d.count).map (fun p => rowsFrom (x.d.scalar % 512) (v p) (v (p + 1)))) ∧ t.hod = s.hod ∧ t.mem = s.mem ∧
        OnlyStorage { s with epOut := t.epOut, tracker := t.tracker } t) ∧
    (Runs s sid 0x22 x → ∀ m, popMismatch x.d r = some m →
      ∃ t, exec (.hodPop sid) s = .next t ∧ Ended s t x 0x4B m x.tilesDone ∧ t = { s with tracker := t.tracker }))

/-- HOD_STATS_ORDER (R126): of one tile it delivers, as an IDX32 tile, the order from the index that SCALAR names, and
completes; a block size, length or divisibility out of range ends it with REJ_ARG. Without the causal flag, entry n of nq query blocks by nk key blocks
is key block nk − 1 − n ÷ nq, counting downward, and query block n mod nq.
PLB_CLOSE (R130, R132, R133): it closes the open kind 1 digests of its partition, of one tag alone where STATION_ARG bit 16 is set, and completes
with their number in DETAIL. With no log the digests are all that change; with a log that has room and one digest to close, the 32 bytes of its entry
stand at LOG_PRODUCER, which advances. -/
def Obligations.StatsAndDigests : Prop :=
  ((∀ (sid : Nat) (x : Stream) (s : State), Runs s sid 0x25 x →
    let bq := 64 * 2 ^ (x.d.arg % 8)
    let bk := 64 * 2 ^ bits x.d.arg 6 4
    let len := x.d.scalar % 2 ^ 23
    let bad := 6 < x.d.arg % 8 ∨ 6 < bits x.d.arg 6 4 ∨ len = 0 ∨ 4194304 < len ∨ len % bq ≠ 0 ∨ len % bk ≠ 0
    let entries := orderTile (x.d.arg.testBit 8) bq bk (len / bq) (len / bk) (x.d.scalar / 2 ^ 32)
    (¬ bad → x.d.count = 1 → entries ≠ [] →
      ∃ t, exec (.hodStatsOrder sid) s = .next t ∧ Ended s t x 0 0 (x.tilesDone + 1) ∧
        t.epOut = s.epOut ++ epTiles x 0 [mkTile (entries.flatMap (natLe 4) ++ zeros (4096 - 4 * entries.length)) 6 entries.length 0] ∧
        t = { s with regs := t.regs, tokens := t.tokens, epOut := t.epOut, tracker := t.tracker }) ∧
    (bad → ∃ t, exec (.hodStatsOrder sid) s = .next t ∧ Ended s t x 0x17 0 x.tilesDone ∧ t = { s with tracker := t.tracker })) ∧
  (∀ bq bk nq nk n : Nat, n < nq * nk → orderEntry false bq bk nq nk n = some ((nk - 1 - n / nq) * 65536 + n % nq))) ∧
  (∀ (sid : Nat) (x : Stream) (s : State), Runs s sid 0x28 x →
    let shut := s.digests.filter (fun d => decide (d.part = x.d.part ∧ d.kind = 1 ∧ (x.d.arg.testBit 16 = true → d.tag = x.d.arg % 65536)))
    let kept := s.digests.filter (fun d => !decide (d.part = x.d.part ∧ d.kind = 1 ∧ (x.d.arg.testBit 16 = true → d.tag = x.d.arg % 65536)))
    let pos := reg s K.LOG_PRODUCER % max 1 (reg s K.LOG_SIZE)
    (reg s K.LOG_STATE ≠ 1 ∨ reg s K.PLB_MODE ≠ 1 → ∃ t, exec (.plbClose sid) s = .next t ∧ Ended s t x 0 shut.length x.tilesDone ∧ t.digests = kept ∧
      t = { s with digests := t.digests, tracker := t.tracker }) ∧
    (∀ (d : Digest) (slot : Nat), shut = [d] → reg s K.LOG_STATE = 1 → reg s K.PLB_MODE = 1 →
        (reg s K.LOG_PRODUCER + 2 ^ 32 - reg s K.LOG_CONSUMER) % 2 ^ 32 < reg s K.LOG_SIZE → slot < 522240 → reg s K.FLIP_STATE ≠ 1 →
        slotOf s (reg s K.LOG_PARTITION) (reg s K.LOG_BASE % 2 ^ 48 + pos / 128) = some slot →
      ∃ t, exec (.plbClose sid) s = .next t ∧ Ended s t x 0 1 x.tilesDone ∧ t.digests = kept ∧
        reg t K.LOG_PRODUCER = (reg s K.LOG_PRODUCER + 1) % 2 ^ 32 ∧ Counted s t K.PLB_LOGGED 1 ∧
        readBytes t.mem (yardAddr slot (pos / 2 % 64) + pos % 2 * 32) 32 =
          natLe 8 d.sum ++ natLe 8 (d.epoch % 2 ^ 48 + d.part * 2 ^ 48 + d.kind * 2 ^ 52 + b2n d.poison * 2 ^ 56) ++
          natLe 8 (d.tag % 65536 + min d.tiles (2 ^ 32 - 1) * 65536) ++ natLe 4 (nowNs s % 1000000000) ++ natLe 4 (nowS s) ∧
        LinesStand s t (yardLines slot)))

/-- A merge is a set operation (R139 to R142): over operands whose index tiles are known and whose indices strictly ascend, the walk ends, skipping
or not, with a strictly ascending list of indices that are exactly those in both operands (mode 0), in either (mode 1), or in A and not in B (mode 2), each with
its place in each operand that has it. -/
def Obligations.MergeIsSetOperation : Prop :=
  ∀ (k : Known) (o : Operands) (A B : List Nat), A.length = o.na → B.length = o.nb → o.mode ≤ 2 → A.Pairwise (· < ·) → B.Pairwise (· < ·) →
      (∀ i (h : i < A.length), lookIndex k o.a i = .val A[i]) → (∀ i (h : i < B.length), lookIndex k o.b i = .val B[i]) →
    let r := walk k o (o.na + o.nb + 1) { i := 0, j := 0, out := [], comps := 0, skips := 0 }
    let out := r.1.out.reverse
    r.2 = .done ∧ (out.map Prod.fst).Pairwise (· < ·) ∧
      (∀ v, v ∈ out.map Prod.fst ↔ (if o.mode = 0 then v ∈ A ∧ v ∈ B else if o.mode = 1 then v ∈ A ∨ v ∈ B else v ∈ A ∧ v ∉ B)) ∧
      (∀ e ∈ out, (∀ i, e.2.1 = some i → A[i]? = some e.1) ∧ (e.2.1 = none → e.1 ∉ A) ∧ (∀ j, e.2.2 = some j → B[j]? = some e.1) ∧
        (e.2.2 = none → e.1 ∉ B))

/-- SIV_MERGE of two index lists of one tile each, homed in the yard, toward EP (R139 to R142): the output's indices leave as IDX32 tiles in ascending
order, and the stream completes with their number in DETAIL. -/
def Obligations.SieveMerged : Prop :=
  ∀ (sid : Nat) (va vb : Tile) (x : Stream) (s : State), Runs s sid 0x30 x → x.d.arg % 4 ≠ 3 → x.d.format = 6 → srcHop x.d ≠ stMP → sinkHop x.d = stEP →
      x.d.count = 1 → x.tilesDone = 0 → AtStart x → 0 < x.d.scalar % 2 ^ 32 → x.d.scalar % 2 ^ 32 ≤ 1024 → 0 < x.d.scalar / 2 ^ 32 → x.d.scalar / 2 ^ 32 ≤ 1024 →
      x.d.arg / 256 = 0 → x.d.src ≠ x.d.aux → ReadsYard s x.d.part x.d.src va → ReadsYard s x.d.part x.d.aux vb →
      (listEntries [va] (x.d.scalar % 2 ^ 32)).Pairwise (· < ·) → (listEntries [vb] (x.d.scalar / 2 ^ 32)).Pairwise (· < ·) →
    ∃ (t : State) (l : List Nat), exec (.sivMerge sid) s = .next t ∧ Ended s t x 0 l.length (tilesFrom 6 5 (l.map (fun v => (v, false)))).length ∧
      l.Pairwise (· < ·) ∧
      (∀ v, v ∈ l ↔ (let a := v ∈ listEntries [va] (x.d.scalar % 2 ^ 32)
                     let b := v ∈ listEntries [vb] (x.d.scalar / 2 ^ 32)
                     if x.d.arg % 4 = 0 then a ∧ b else if x.d.arg % 4 = 1 then a ∨ b else a ∧ ¬ b)) ∧
      t.epOut = s.epOut ++ epTiles x 0 (tilesFrom 6 5 (l.map (fun v => (v, false)))) ∧ Counted s t K.SIV_MERGED l.length ∧ t.mem = s.mem ∧
      OnlyStorage { s with epOut := t.epOut, tracker := t.tracker } t

/-- SIV_GATHER by a list of one tile toward EP (R143): the rows that the list names leave packed in list order, TILES_DONE counts their tiles, and the rows
are counted. SIV_SCATTER of rows from EP over one zero-filled destination tile homed in the yard (R143): each listed row lies at its place, and the
rest is zero. -/
def Obligations.RowsMoved : Prop :=
  (∀ (sid : Nat) (vl : Tile) (x : Stream) (s : State),
    let k := x.d.arg % 8
    let n := x.d.scalar % 2 ^ 32
    let rpt := 64 / 2 ^ k
    let idx := listEntries [vl] n
    k ≠ 7 → 0 < n → n ≤ 1024 → x.tilesDone = 0 → AtStart x → ReadsYard s x.d.part x.d.aux vl →
    (∀ v : Nat → Tile, Runs s sid 0x31 x → listFault idx (x.d.count * rpt) = none → srcHop x.d ≠ stMP → sinkHop x.d = stEP →
        (∀ r ∈ idx, ReadsYard s x.d.part (x.d.src + r / rpt) (v (r / rpt))) →
      ∃ t, exec (.sivGather sid) s = .next t ∧
        t.epOut = s.epOut ++ epTiles x 0 (packRows x.d.format k (n + 1) (idx.map (fun r => rowOfTiles [v (r / rpt)] k (r % rpt)))) ∧
        Ended s t x 0 0 (packRows x.d.format k (n + 1) (idx.map (fun r => rowOfTiles [v (r / rpt)] k (r % rpt)))).length ∧
        Counted s t K.SIV_ROWS n ∧ t.mem = s.mem ∧ OnlyStorage { s with epOut := t.epOut, tracker := t.tracker } t) ∧
    (∀ slot, Runs s sid 0x32 x → s.rdx.runs = [] → listFault idx rpt = none → sinkHop x.d = stHOM → x.d.arg.testBit 8 = true → x.d.scalar / 2 ^ 32 = 1 →
        x.d.count = ceilDiv n rpt → SourceArrived x x.d.count → WritesYard s x.d.part x.d.dst slot → x.d.format < 16 →
      ∃ t, exec (.sivScatter sid) s = .next t ∧ Ended s t x 0 0 1 ∧
        YardTile t slot (placeRows x.d.format k (zeroTile x.d.format) ((List.range n).map (fun m => ((idx[m]?).getD 0, rowOfTiles x.inbox k m)))) ∧
        LinesStand s t (yardLines slot) ∧ Counted s t K.SIV_ROWS n ∧ OnlyStorage { s with tracker := t.tracker } t))

/-- SIV_DISPATCH of rows from EP toward EP with a routing list of one tile (R146 to R151): the rows leave in the plan's layout, empty places zero; the
route table and the counts record stand in their tiles; DETAIL counts the rows past their expert's capacity; the experts seen are kept. SIV_RETURN of
rows from EP by a route table of one tile (R150): each token's rows leave in order of pair, zero where the table has none, whose number is DETAIL. -/
def Obligations.ExpertsExchanged : Prop :=
  ∀ (sid : Nat) (vl : Tile) (x : Stream) (s : State),
    let p := planOf x.text
    let n := x.d.arg / 256
    let k := p.code
    let rpt := 64 / 2 ^ k
    planRefuses p x.d.part = none → 0 < n → k ≤ 6 → x.tilesDone = 0 → AtStart x → x.epoch = reg s (K.EPOCH x.d.part) → sinkHop x.d = stEP → SourceArrived x x.d.count →
    (let m := n * p.topk
     let route := listEntries [vl] m
     let lay := layoutFrom p rpt (roundUp p.cap rpt) route p.experts 0 (p.experts * roundUp p.cap rpt) []
     let at_ := lay.1.foldl (fun mp rp => smapPut mp rp.1 rp.2) ([] : SMap Nat)
     let rows := (List.range lay.2).map (fun r => match smapGet at_ r with
       | some pr => rowOfTiles x.inbox k (pr / p.topk)
       | none => (zeros (64 * 2 ^ k), []))
     let table := (List.range lay.2).map (fun r => match smapGet at_ r with
       | some pr => (pr / p.topk * 8 + pr % p.topk, false)
       | none => (nullEntry, false))
     let seen := route.foldl (fun v e => if e = nullEntry then v else v ||| 2 ^ e) ((smapGet s.visits (x.d.arg % 16)).getD 0)
     ∀ (kt : Nat) (kc : Nat → Nat), Runs s sid 0x33 x → x.d.count = ceilDiv n rpt → 0 < m → m ≤ 1024 → ReadsYard s x.d.part x.d.aux vl →
        (∀ i, i < m → (route[i]?).getD 0 = nullEntry ∨ (route[i]?).getD 0 < p.experts) → lay.2 / rpt ≤ p.dest → 0 < lay.2 → lay.2 ≤ 1024 →
        WritesYard s x.d.part (x.d.scalar % 2 ^ 48) kt → (∀ i, i < 5 → WritesYard s x.d.part (p.counts + i) (kc i) ∧ kc i ≠ kt) →
        (∀ i j, i < 5 → j < 5 → kc i = kc j → i = j) →
      ∃ t, exec (.sivDispatch sid) s = .next t ∧ t.epOut = s.epOut ++ epTiles x 0 (packRows x.d.format k (lay.2 + 1) rows) ∧
        Ended s t x 0 (lay.1.filter (fun rp => decide (p.experts * roundUp p.cap rpt ≤ rp.1))).length
          (packRows x.d.format k (lay.2 + 1) rows).length ∧
        YardTile t kt ((tilesFrom 6 (lay.2 + 1) table).headD (zeroTile 0)) ∧
        (∀ i, i < 5 → YardTile t (kc i) (((countTiles p route seen)[i]?).getD (zeroTile 0))) ∧
        smapGet t.visits (x.d.arg % 16) = some seen ∧ Counted s t K.SIV_DISPATCHED lay.1.length ∧
        OnlyStorage { s with epOut := t.epOut, visits := t.visits, tracker := t.tracker } t) ∧
    (let m := x.d.count * rpt
     let es := listEntries [vl] m
     let total := n * p.topk
     let rows := (List.range total).map (fun pos =>
       let r := es.idxOf (pos / p.topk * 8 + pos % p.topk)
       if r < es.length then rowOfTiles x.inbox k r else (zeros (64 * 2 ^ k), []))
     Runs s sid 0x34 x → s.rdx.runs = [] → 0 < m → m ≤ 1024 → ReadsYard s x.d.part (x.d.scalar % 2 ^ 48) vl → tableFault es n p.topk = none →
      ∃ t, exec (.sivReturn sid) s = .next t ∧ t.epOut = s.epOut ++ epTiles x 0 (packRows x.d.format k (total + 1) rows) ∧
        Ended s t x 0 ((List.range total).filter (fun pos => decide ((pos / p.topk * 8 + pos % p.topk) ∉ es))).length
          (packRows x.d.format k (total + 1) rows).length ∧
        t.mem = s.mem ∧ OnlyStorage { s with epOut := t.epOut, tracker := t.tracker } t)

/-- TRG_OPEN without a mask, past its checks and with storage free (R160 to R162): the layer is open, with the descriptor's number, range, count, flags
and the partition's arithmetic mode, in the lowest free run of slots that holds it (R71), and holds no term; DETAIL is the slots it takes. Without storage the stream waits. TRG_CLOSE of a layer that no
ordinal and no reader holds frees it, its slots in DETAIL (R173).
TRG_DONE of an open layer that no earlier ordinal holds (R171): the layer is in state 3, each of its elements has its final sum, which is the balanced
tree over the layer's ordinals (R164), and DETAIL is the ordinals taken. TRG_READ of a layer in state 3 toward EP in FP32 (R172): its tiles leave in order;
a layer in another state ends it with that state in DETAIL. -/
def Obligations.LayersOpenedReadClosed : Prop :=
  (∀ (sid : Nat) (x : Stream) (s : State),
    let m := x.d.arg % 65536
    let slots := layerSlots (refMode s x.d.part x.epoch) x.d.count m none
    (Runs s sid 0x40 x → x.d.arg.testBit 24 = false → openRefuses s x slots = none → slots ≤ troughFree s →
        s.tracker.streams.all (fun y => !accumulates y.d) = true → CleanLines s (troughPlace s slots) → reg s K.FLIP_STATE ≠ 1 →
      ∃ t, exec (.trgOpen sid) s = .next t ∧ Ended s t x 0 slots x.tilesDone ∧
        t.layers = s.layers ++ [{ num := bits x.d.arg 21 16, part := x.d.part, queue := x.queue, tensor := x.d.tensor, first := x.d.dst, tiles := x.d.count,
                                  m := m, isLocal := x.d.arg.testBit 22, byDesc := x.d.arg.testBit 23, unit := none, mask := [],
                                  reference := refMode s x.d.part x.epoch, slots := slots, place := troughPlace s slots, state := 1, taken := 0, ended := [],
                                  terms := [], finals := [], bad := [] }] ∧
        t = { s with layers := t.layers, tracker := t.tracker }) ∧
    (Runs s sid 0x40 x → x.d.arg.testBit 24 = false → openRefuses s x slots = none → troughFree s < slots →
      ∃ t, exec (.trgOpen sid) s = .next t ∧ findStream t sid = some { x with mark := 1 } ∧ OthersStand s t sid ∧ t = { s with tracker := t.tracker }) ∧
    (∀ l, Runs s sid 0x45 x → layerOf s x.d.part x.d.dst = some l → (l.state = 1 → ordinalBefore s l sid = false) → (l.state ≠ 1 → layerRead s l = false) →
      ∃ t, exec (.trgClose sid) s = .next t ∧ Ended s t x 0 l.slots x.tilesDone ∧ t.layers = s.layers.filter (fun g => decide (g.num ≠ l.num)) ∧
        t = { s with layers := t.layers, tracker := t.tracker }) ∧
    (∀ l, Runs s sid 0x45 x → layerOf s x.d.part x.d.dst = some l → l.state = 1 → ordinalBefore s l sid = true →
      exec (.trgClose sid) s = .next s)) ∧
  (∀ (sid : Nat) (l : Layer) (x : Stream) (s : State), layerAt s l.num = some l →
    (Runs s sid 0x43 x → s.rdx.runs = [] → layerOf s x.d.part x.d.dst = some l → l.state = 1 → ordinalBefore s l sid = false → keysRise l.terms = true →
        CleanLines s l.place → reg s K.FLIP_STATE ≠ 1 →
      ∃ t l', exec (.trgDone sid) s = .next t ∧ Ended s t x 0 l.taken x.tilesDone ∧ layerAt t l.num = some l' ∧ l'.state = 3 ∧ l'.terms = [] ∧
        (∀ e terms, smapGet l.terms e = some terms → (smapGet l'.finals e).getD 0 = finalSum s l x.epoch e terms) ∧
        Counted s t K.TRG_LAYERS_DONE 1 ∧ t = { s with regs := t.regs, layers := t.layers, tracker := t.tracker }) ∧
    (Runs s sid 0x44 x → layerOf s x.d.part x.d.src = some l → l.state = 3 → x.d.src + x.d.count ≤ l.first + l.tiles → sinkHop x.d = stEP →
        x.d.format = x.d.outFormat → x.pos = 0 → x.tilesDone = 0 → CleanLines s l.place →
      ∃ t, exec (.trgRead sid) s = .next t ∧ Ended s t x 0 0 x.d.count ∧
        t.epOut = s.epOut ++ epTiles x 0 ((List.range x.d.count).map (fun i => finalTile l (x.d.src - l.first + i))) ∧ t.layers = s.layers ∧
        OnlyStorage { s with epOut := t.epOut, tracker := t.tracker } t) ∧
    (Runs s sid 0x44 x → layerOf s x.d.part x.d.src = some l → l.state ≠ 3 → x.d.src + x.d.count ≤ l.first + l.tiles →
      ∃ t, exec (.trgRead sid) s = .next t ∧ Ended s t x 0x5F l.state x.tilesDone ∧ t = { s with tracker := t.tracker }))

/-- TRG_ACC of one FP32 tile, and TRG_ROW_ADD of one row, from EP into an open layer without a mask whose turn has come (R161, R163, R164, R166): the
words are the ordinal's terms at their elements and no other term changes; the ordinal has completed; terms are counted. The last ordinal of a layer of the
count trigger makes it done, in state 3 (R171). -/
def Obligations.TermsAccumulated : Prop :=
  ∀ (sid : Nat) (v : Tile) (l : Layer) (x : Stream) (s : State), s.rdx.runs = [] → CleanLines s l.place → reg s K.FLIP_STATE ≠ 1 → s.safety.lanes = [] → layerOf s x.d.part x.d.dst = some l → layerAt s l.num = some l →
      l.unit = none → (∀ e, smapGet ((smapGet l.terms e).getD []) x.ordinal = none) → srcHop x.d = stEP → x.inbox = [v] → SoundTile v → x.d.count = 1 →
      x.mark = 1 → l.ended.contains x.ordinal = false →
    (Runs s sid 0x41 x → x.d.format = 1 → accCheck s x 1 = .go l → x.pos = 0 →
      ∃ t l', exec (.trgAcc sid) s = .next t ∧ Ended s t x 0 0 (x.tilesDone + 1) ∧ layerAt t l.num = some l' ∧ l'.ended = x.ordinal :: l.ended ∧
        Counted s t K.TRG_TERMS 1024 ∧
        (if l.byDesc = false ∧ l.ended.length + 1 = l.m then l'.state = 3 else l'.state = 1 ∧
          (∀ i, i < 1024 → termOf l' x.ordinal ((x.d.dst - l.first) * 1024 + i) = leaf (((words32 v.data)[i]?).getD 0)) ∧
          (∀ o e, ¬ (o = x.ordinal ∧ (x.d.dst - l.first) * 1024 ≤ e ∧ e < (x.d.dst - l.first) * 1024 + 1024) → termOf l' o e = termOf l o e)) ∧
        t = { s with regs := t.regs, layers := t.layers, tracker := t.tracker }) ∧
    (∀ (vl : Tile) (row : Nat), Runs s sid 0x42 x → accCheck s x 1 = .go l → x.d.arg % 8 ≠ 7 → x.d.arg.testBit 8 = false → x.d.scalar % 2 ^ 32 = 1 → x.pos = 0 → x.fetched = [] →
        ReadsYard s x.d.part x.d.aux vl → listEntries [vl] 1 = [row] → row < 64 / 2 ^ (x.d.arg % 8) * (l.tiles - (x.d.dst - l.first)) →
      ∃ t l', exec (.trgRowAdd sid) s = .next t ∧ Ended s t x 0 0 (x.tilesDone + 1) ∧ layerAt t l.num = some l' ∧ l'.ended = x.ordinal :: l.ended ∧
        (if l.byDesc = false ∧ l.ended.length + 1 = l.m then l'.state = 3 else l'.state = 1 ∧
          (let base := (x.d.dst - l.first) * 1024 + row * (16 * 2 ^ (x.d.arg % 8))
           let words := words32 (rowOfTiles [v] (x.d.arg % 8) 0).1
           (∀ i, i < 16 * 2 ^ (x.d.arg % 8) → termOf l' x.ordinal (base + i) = leaf ((words[i]?).getD 0)) ∧
           (∀ o e, ¬ (o = x.ordinal ∧ base ≤ e ∧ e < base + words.length) → termOf l' o e = termOf l o e))) ∧
        OnlyStorage { s with layers := t.layers, tracker := t.tracker } t)

/-- The reduction station, once nothing more is awaited. RDX_NORM_LOCAL of a layer in state 3 keeps the layer's sum of squares, a balanced tree over
its elements, for the epoch's norm (R184, R193). RDX_REDUCE, its shard's partials all added and every other segment sent, writes its shard's tile,
frees the layer and completes with the tiles sent in DETAIL (R188). RDX_GATHER, every segment here and forwarded, delivers the tiles in ascending order
(R184). RDX_NORM, every partial here, delivers the norm, the clip factor, the total and its own partial as one tile, and the registers hold the norm
and the clip factor (R194). -/
def Obligations.ReductionsComplete : Prop :=
  ∀ (sid : Nat) (r : RdxRun) (x : Stream) (s : State),
    let q := x.d.part
    let n := groupN s q
    let me := groupRank s q
    findRun s sid = some r → r.slotted = true → r.part = q → r.op = x.d.opcode → r.desc = x.d → r.epoch = x.epoch → r.left = false → r.layer = none → s.rdx.waiting = [] →
    (∀ l, Runs s sid 0x51 x → r.started = false → rdxRefuses s x = none → layerOf s q x.d.src = some l → l.state = 3 → normMode s ≠ 2 → s.safety.lanes = [] → CleanLines s l.place →
      ∃ t, exec (.rdxNormLocal sid) s = .next t ∧ Ended s t x 0 0 x.tilesDone ∧
        t.rdx.folds = s.rdx.folds ++ [{
          part := q, epoch := x.epoch, tag := r.tag, poison := decide (l.bad ≠ []),
          sum := treeOf (srCtx s q x.epoch l.tensor 0x05 (l.first * 1024)) 0
            ((List.range (1024 * l.tiles)).map (fun i => square ((smapGet l.finals i).getD 0))) }] ∧
        findRun t sid = none ∧ t = { s with rdx := t.rdx, tracker := t.tracker }) ∧
    (∀ l slot, Runs s sid 0x50 x → r.started = true → r.asked = true → x.d.arg.testBit 16 = false → x.tilesDone = 0 →
        layerOf s q x.d.src = some l → l.state = 3 → CleanLines s l.place → edgeOut n me me = none → shardTiles l.tiles n me = 1 →
        (∀ sh seg, sh < n → sh ≠ me → seg < shardSegs l.tiles n sh → ∃ out, edgeOut n sh me = some out ∧ (segKey sh seg, out.dst) ∈ r.sent) →
        (∀ e ∈ edgesIn n me me, (findPart r me e.lo (ceilLog2 e.n) 0).isSome = true) → 0 < (rootParts r n me).length →
        (rootTile s r l (rootParts r n me) (shardLo l.tiles n me) 0).info.poison = 0 → sinkHop x.d = stHOM → WritesYard s q x.d.dst slot →
      ∃ t, exec (.rdxReduce sid) s = .next t ∧ Ended s t x 0 r.sentTiles 1 ∧
        YardTile t slot (rootTile s r l (rootParts r n me) (shardLo l.tiles n me) 0) ∧ LinesStand s t (yardLines slot) ∧
        t.layers = s.layers.filter (fun g => decide (g.num ≠ l.num)) ∧ findRun t sid = none ∧
        OnlyStorage { s with layers := t.layers, rdx := t.rdx, tracker := t.tracker } t) ∧
    (∀ v : Nat → Tile, Runs s sid 0x52 x → r.started = true → r.asked = true → x.tilesDone = 0 → sinkHop x.d = stEP →
        (∀ sh seg, sh < n → seg < shardSegs x.d.count n sh → ∀ e ∈ edgesIn n sh me, (segKey sh seg, e.src) ∈ r.sent) →
        (∀ i, i < x.d.count →
          let sh := ((List.range n).find? (fun k => decide (i < shardLo x.d.count n (k + 1)))).getD 0
          ∃ ts, gatherSeg r sh ((i - shardLo x.d.count n sh) / 16) = some ts ∧ ts[(i - shardLo x.d.count n sh) % 16]? = some (v i)) →
      ∃ t, exec (.rdxGather sid) s = .next t ∧ Ended s t x 0 0 x.d.count ∧ t.epOut = s.epOut ++ epTiles x 0 ((List.range x.d.count).map v) ∧
        findRun t sid = none ∧ OnlyStorage { s with epOut := t.epOut, rdx := t.rdx, tracker := t.tracker } t) ∧
    (∀ own ob, Runs s sid 0x53 x → r.started = true → r.asked = true → x.tilesDone = 0 → sinkHop x.d = stEP → me < n →
        r.norms.find? (fun p => decide (p.1 = me)) = some (me, own, ob) → (∀ k, k < n → r.norms.any (fun p => decide (p.1 = k)) = true) →
      let ps := r.norms
      let c := srCtx s q x.epoch 0 0x05 (nullName * 1024 + 2)
      let total := result c (treeOf c 0 ((List.range n).map (fun k => match ps.find? (fun p => decide (p.1 = k)) with | some p => p.2.1 | none => leaf 0)))
      let norm := fSqrt .rne total
      let clip := clipFactor (BitVec.ofNat 32 (x.d.scalar % 2 ^ 32)) norm
      ∃ t, exec (.rdxNorm sid) s = .next t ∧ Ended s t x 0 0 1 ∧
        t.epOut = s.epOut ++ epTiles x 0 [mkTile (bytes32 [norm, clip, total, result c own] ++ zeros 4080) 1 4 (if ps.any (fun p => p.2.2) then 1 else 0)] ∧
        reg t (K.RDX_NORM_VALUE q) = norm.toNat ∧ reg t (K.RDX_CLIP q) = clip.toNat ∧ findRun t sid = none ∧ t.mem = s.mem)

/-- Reduction packets (R181, R186, R190, R193, R198). One of another group is counted and dropped; one for which no descriptor has started waits. An RDX_OPEN that differs ends the
descriptor with status 0x63, the rank and the item; one that agrees grants a sender that sends here its credits, once for the reduction (R201). A credit is added to what is held for its rank; a segment
of a gather is kept and its credit returned; a partial of the norm is kept; and an abandon notice ends the descriptor with status 0x64.
How an RDX_OPEN's payload, a grant and a partial's poison lie in their packets is the model's choice: log entry 34.
RDX_STALLED of a descriptor that has not finished and has not raised it (R192): the event is counted and seen, the stream notes it, and nothing
else of the stream or the run changes. A second time does nothing. -/
def Obligations.ReductionPackets : Prop :=
  (∀ (p : Packet) (s : State),
    let q := p.partition
    let tag := rdxTag p
    let rank := rdxRank p
    let ours := reg s (K.RG_STATE q) = 1 ∧ p.w4.toNat % 2 ^ 32 = reg s (K.RG_GROUP_ID q)
    let lines := [(Instr.rdxOpen p, 0x20, 1), (.rdxCredit p, 0x22, 0), (.rdxAbandon p, 0x23, 0), (.rdxNormPartial p, 0x24, 0)]
    (∀ cmd ∈ (Instr.rdxSegment p, 0x21, 0) :: lines, Arrives s p cmd.2.1 → ¬ ours →
      ∃ t, exec cmd.1 s = .next t ∧ Counted s t K.RDX_FOREIGN 1 ∧ RegsOnly s t [K.FP_RX_PACKETS, K.RDX_FOREIGN]) ∧
    (∀ cmd ∈ lines, Arrives s p cmd.2.1 → ours → p.mapEpoch = reg s (K.MAP_EPOCH q) → p.payload.length = cmd.2.2 → runOf s q tag (rdxEpoch p) = none →
      ∃ t, exec cmd.1 s = .next t ∧ t.rdx = { s.rdx with waiting := s.rdx.waiting ++ [p] } ∧ RegsOnly { s with rdx := t.rdx } t [K.FP_RX_PACKETS]) ∧
    (∀ r x, ours → p.mapEpoch = reg s (K.MAP_EPOCH q) → runOf s q tag (rdxEpoch p) = some r → findRun s r.sid = some r → findStream s r.sid = some x → x.d.part = q → x.taken = true → x.unacked = 0 →
        x.closing = false → x.finish = none → rdxEpoch p = r.epoch → r.op = x.d.opcode → r.desc = x.d → r.left = false → r.layer = none →
      (∀ i, Arrives s p 0x20 → p.payload.length = 1 → openDiffers (openBytes s x) (lineData p.payload) = some i →
        ∃ t, exec (.rdxOpen p) s = .next t ∧ Ended s t x 0x63 (rank + i * 4096) x.tilesDone ∧ Counted s t K.RDX_ABANDONS 1 ∧ findRun t r.sid = none ∧
          OnlySent { s with rdx := t.rdx, tracker := t.tracker } t) ∧
      (∀ l, Arrives s p 0x20 → p.payload.length = 1 → openDiffers (openBytes s x) (lineData p.payload) = none → r.op = 0x50 →
          layerOf s q x.d.src = some l → l.state ≠ 3 →
        ∃ t, exec (.rdxOpen p) s = .next t ∧ findRun t r.sid = some r ∧ OnlySent s t ∧
          (∀ w, rankWindow s q rank = some w → (windowOf s q w).valid = true → sendsHere s r rank = true →
            t.fabric.out = s.fabric.out ++ [toRank s q w { rdxPkt s q 0x22 r.tag r.epoch (reg s K.RDX_SEG_CREDITS % 256) with level := 0 }]) ∧
          (sendsHere s r rank = false → t.fabric.out = s.fabric.out)) ∧
      (∀ l, Arrives s p 0x22 → p.payload.length = 0 → r.op = 0x50 → layerOf s q x.d.src = some l → l.state ≠ 3 →
        ∃ t, exec (.rdxCredit p) s = .next t ∧ RegsOnly { s with rdx := t.rdx } t [K.FP_RX_PACKETS] ∧
          ∃ u, findRun t r.sid = some u ∧ creditOf u rank = creditOf r rank + p.w6.toNat % 256 ∧
            u = { r with credit := u.credit }) ∧
      (∀ ts, Arrives s p 0x21 → r.op = 0x52 → r.asked = true → x.tilesDone = 0 →
          let sh := bits p.w6.toNat 51 40
          let seg := p.w6.toNat % 2 ^ 32
          let n := segTiles x.d.count (groupN s q) sh seg
          OneFragment p (64 * n) → edgesIn (groupN s q) sh (groupRank s q) = [] → r.shardsIn = [] → 0 < x.d.count →
          (sh ≠ 0 ∨ seg ≠ 0) → shardTiles x.d.count (groupN s q) 0 ≠ 0 →
          ts = (List.range n).map (fun i => mkTile (bytesAt (lineData p.payload) (4096 * i) 4096) x.d.format (elemCount x.d.format) 0) →
        ∃ t, exec (.rdxSegment p) s = .next t ∧ findRun t r.sid = some { r with shardsIn := [(segKey sh seg, ts)] } ∧
          Counted s t K.RDX_BYTES_RECEIVED (64 * p.payload.length) ∧ OnlySent { s with rdx := t.rdx } t) ∧
      (Arrives s p 0x24 → p.payload.length = 0 → r.op = 0x53 → r.asked = false → foldsPending s x = true →
        ∃ t, exec (.rdxNormPartial p) s = .next t ∧ RegsOnly { s with rdx := t.rdx } t [K.FP_RX_PACKETS] ∧
          let v : Part := { s := BitVec.ofNat 32 (p.w6.toNat % 2 ^ 32), c := BitVec.ofNat 32 (p.w6.toNat / 2 ^ 32) }
          findRun t r.sid = some { r with norms := (rank, v, p.w5.getLsbD 48) :: r.norms }) ∧
      (Arrives s p 0x23 → p.payload.length = 0 →
        ∃ t, exec (.rdxAbandon p) s = .next t ∧ Ended s t x 0x64 rank x.tilesDone ∧ Counted s t K.RDX_ABANDONS 1 ∧ findRun t r.sid = none ∧
          OnlySent { s with rdx := t.rdx, tracker := t.tracker } t))) ∧
  (∀ (sid : Nat) (r : RdxRun) (x : Stream) (s : State), working s = true → findRun s sid = some r → findStream s sid = some x →
    (x.stallRaised = false → x.finish = none →
      ∃ t, exec (.rdxStalled sid) s = .next t ∧ findStream t sid = some { x with stallRaised := true } ∧ OthersStand s t sid ∧
        Counted s t K.RDX_STALL_EVENTS 1 ∧ t = { s with regs := t.regs, safety := t.safety, tracker := t.tracker } ∧
        (∀ k, stateKey k = true → reg t k = reg s k)) ∧
    (x.stallRaised = true → exec (.rdxStalled sid) s = .next s))

/-- TRW_LOAD_PROGRAM into slot 8 or above of a program that nothing offends (R205, R214): the slot holds the tile's operations, its bit of TRW_SLOTS is
set, DETAIL counts the operations, and one tile is done; a program that offends ends the stream with status 0x68 and the offending position, and a
built-in slot with 0xFE. -/
def Obligations.ProgramLoaded : Prop :=
  ∀ (sid : Nat) (v : Tile) (x : Stream) (s : State), Runs s sid 0x60 x →
    let slot := x.d.arg % 16
    let n := leAt v.data 0 4 % 64
    let ws := (List.range n).map (fun i => leAt v.data (4 * (i + 1)) 4)
    (8 ≤ slot → ReadsYard s x.d.part x.d.src v → programOffends n (ws.map opOf) = none →
      ∃ t, exec (.trwLoadProgram sid) s = .next t ∧ Ended s t x 0 n (x.tilesDone + 1) ∧ smapGet t.programs slot = some ws ∧
        (∀ j, j ≠ slot → smapGet t.programs j = smapGet s.programs j) ∧ t.mem = s.mem ∧
        OnlyStorage (setReg { s with programs := t.programs, tracker := t.tracker } K.TRW_SLOTS (setBit (reg s K.TRW_SLOTS) slot true)) t) ∧
    (∀ i, 8 ≤ slot → ReadsYard s x.d.part x.d.src v → programOffends n (ws.map opOf) = some i →
      ∃ t, exec (.trwLoadProgram sid) s = .next t ∧ Ended s t x 0x68 i x.tilesDone ∧ t.mem = s.mem ∧ OnlyStorage { s with tracker := t.tracker } t) ∧
    (slot < 8 → ∃ t, exec (.trwLoadProgram sid) s = .next t ∧ Ended s t x 0x68 0xFE x.tilesDone ∧ t = { s with tracker := t.tracker })

/-- TRW_UPDATE of one unit of a plane of 32-bit values, outside coded data, with a program that stores that plane (R205, R207, R210 to R213, R221): each of
the 16,384 elements becomes what the program makes of its old value and of its gradient, in the rounding that its own counter gives; each of the 16 tiles
keeps its format and VALID and carries its new bytes and CRC, and no other line of memory changes; the elements are counted; the update's verdict stands for
the commit. -/
def Obligations.UpdateRetired : Prop :=
  ∀ (sid : Nat) (pt : Tile) (v g : Nat → Tile) (k : Nat → Nat) (x : Stream) (s : State), Runs s sid 0x61 x →
    let p := paramsOf pt
    let ops := programOf x
    let env := envOf s x p
    let q := x.d.part
    x.mark = 0 → x.pos = 0 → x.ordinal = 0 → x.d.count = 16 → smapGet x.fetched paramKey = some pt → pt.info.poison = 0 →
    ops ≠ [] → ops.any (fun o => decide (storedBy o = some 0)) = true → uses ops 0x04 = false → uses ops 0x05 = false →
    planesOf x.d = 1 → isHalf x.d 0 = false → p.split = false → p.mask = nullName → p.gated = false → x.d.arg.testBit 16 = false →
    reg s K.TRW_MODE = 1 → reg s K.PLB_MODE = 0 → hasWythe s q = false → planeOffends s x = none → updateOffends s x p = none → clipOffends s x p none = none →
    s.safety.lanes = [] →
    updateBlocked s x p = false → s.mixer.kept = [] → s.fabric.reqs.length ≤ 16384 → srcHop x.d ≠ stMP → sinkHop x.d = stHOM →
    (∀ i, i < 16 → ReadsYard s q (x.d.src + i) (v i) ∧ WritesYard s q (x.d.src + i) (k i) ∧ finalLayer s q (x.d.aux + i) = none ∧
      ReadsYard s q (x.d.aux + i) (g i)) →
    (∀ i j, i < 16 → j < 16 → k i = k j → i = j) →
    ∃ t, exec (.trwUpdate sid) s = .next t ∧ Ended s t x 0 0 (x.tilesDone + 16) ∧
      (∀ i, i < 16 → YardTile t (k i) (renewTile (v i) ((List.range 1024).flatMap (fun j =>
        natLe 4 ((runElem env (elemIndex (x.d.src + i) 0 + j) [leAt (v i).data (4 * j) 4] (BitVec.ofNat 32 (leAt (g i).data (4 * j) 4)) 0 0).vals.headD 0))))) ∧
      LinesStand s t ((List.range 16).flatMap (fun i => yardLines (k i))) ∧ Counted s t K.TRW_ELEMENTS 16384 ∧
      t.mixer = { s.mixer with updates := s.mixer.updates.map (fun u => if u.2.1 = sid then (u.1, sid, 1) else u) } ∧
      OnlyStorage { s with mixer := t.mixer, tracker := t.tracker } t

/-- MIX_SEAL and MIX_SEAL_DONE past their acceptance, no earlier writer of their range under way (R264, R265). A MIX_SEAL of one course whose data brick this
block holds, its 16 tiles whole, sends the packed brick to each holder and keeps it as owed by each, and waits; once every course is passed and no brick of
it is owed, it completes with the bricks it sealed in DETAIL. A MIX_SEAL_DONE, every course passed and no gradient brick owed, arrives at the seal barrier,
which completes it when it releases. -/
def Obligations.GradientsSealed : Prop :=
  ∀ (sid : Nat) (v : Nat → Tile) (x : Stream) (s : State),
    let q := x.d.part
    let c := codedCourses s q + (x.d.src - gradFirst s q) / 16
    let b := packBrick ((List.range 16).map (fun i => (v i).data))
    x.ordinal = 1 →
    (Runs s sid 0x70 x → earlier s x (fun y => writesInto s y.d x.d.src x.d.count) = false → x.pos = 0 → x.mark = 0 → x.degraded = [] → x.d.count = 16 →
        isData s q c (ownRank s q) = true → reg s K.PLB_MODE = 0 → reg s K.MIX_MODE ≠ 2 → liveHolders s q c ≠ [] →
        (∀ i, i < 16 → ReadsYard s q (brickName s q c + i) (v i)) →
      ∃ t, exec (.mixSeal sid) s = .next t ∧ findStream t sid = some { x with mark := 1, pos := 1 } ∧ OthersStand s t sid ∧
        t.mixer.kept = s.mixer.kept ++ [{
          part := q, sid := sid, kind := 1, course := c, epoch := x.epoch, unit := 0, rows := liveHolders s q c, sent := (liveHolders s q c).length,
          owed := liveHolders s q c, refused := false, len := b.length, lines := [], who := whoOf x }] ∧
        Counted s t K.SEAL_BRICKS 1 ∧ t.mem = s.mem ∧ OnlyTraffic { s with mixer := { s.mixer with kept := t.mixer.kept }, tracker := t.tracker } t) ∧
    (Runs s sid 0x70 x → earlier s x (fun y => writesInto s y.d x.d.src x.d.count) = false → x.pos = x.d.count / 16 → owedBy s sid = false →
      ∃ t, exec (.mixSeal sid) s = .next t ∧ Ended s t x 0 x.mark x.tilesDone ∧ t = { s with tracker := t.tracker }) ∧
    (Runs s sid 0x71 x → refusalOf s q = none → earlier s x (fun y => writesInto s y.d (gradFirst s q) (gradNames s q)) = false →
        x.pos = gradCourses s q → gradOwed s q = false → (∀ r ∈ s.mixer.resend, r.1 ≠ q) → (∀ b ∈ s.mixer.begun, b.1 ≠ q) → (∀ r ∈ s.members.readyOwed, r.1 ≠ q) → sealHeld s q = false →
        arrivalAt s q 1 x.epoch (reg s (K.BG_POSITION q)) = none →
      ∃ t, exec (.mixSealDone sid) s = .next t ∧ (q, 1, x.epoch) ∈ t.mixer.arrived ∧
        (arrivalAt t q 1 x.epoch (reg s (K.BG_POSITION q))).isSome = true ∧ t.tracker = s.tracker ∧
        OnlySent { s with mixer := { s.mixer with arrived := t.mixer.arrived }, members := { s.members with recorded := t.members.recorded },
                          barriers := t.barriers } t)

/-- MIX_COMMIT in a partition without a wythe map, every update before it completed (R272 to R276): the epoch advances by one, the phase is 1, the other ledger
tile holds the ledger of the new step with the optimizer, schedule and position words of the parameter tile and becomes the current one, and the step is
counted; no line of memory but that tile's changes. -/
def Obligations.StepCommitted : Prop :=
  ∀ (sid slot : Nat) (v : Tile) (x : Stream) (s : State), Runs s sid 0x72 x →
    let q := x.d.part
    let e := reg s (K.EPOCH q)
    x.ordinal = 1 → x.mark = 0 → x.epoch = e → hasWythe s q = false → ReadsYard s q x.d.src v → ledgerHomed s q = true →
    (∀ u ∈ s.mixer.updates, u.1 = q → u.2.1 < sid → 3 ≤ u.2.2 ∨ u.2.2 = 1) → reg s K.LOG_STATE ≠ 1 → reg s (K.RB_STATE q) ≠ 2 → reg s (K.RB_STATE q) ≠ 3 →
    (∀ y ∈ s.mixer.encodes, y.part ≠ q) → (∀ y ∈ s.tracker.streams, y.d.part = q → y.hold ≠ 1) →
    slotOf s q (ledgerName s q (1 - reg s (K.LEDGER_SLOT q))) = some slot → slot < 522240 → reg s K.FLIP_STATE ≠ 1 →
    ∃ t l, exec (.mixCommit sid) s = .next t ∧ Ended s t x 0 0 x.tilesDone ∧
      reg t (K.EPOCH q) = (e + 1) % 2 ^ 48 ∧ reg t (K.STEP_PHASE q) = 1 ∧ reg t (K.LEDGER_SLOT q) = 1 - reg s (K.LEDGER_SLOT q) ∧
      currentLedger t q = some l ∧ l.crcOk = true ∧ l.step = (e + 1) % 2 ^ 48 ∧ l.opt = leAt v.data 0 8 ∧ l.sched = leAt v.data 8 8 ∧
      l.pos.headD 0 = leAt v.data 16 8 ∧ Counted s t K.STEPS_COMMITTED 1 ∧ LinesStand s t (yardLines slot) ∧
      t.homes = s.homes ∧ t.hod = s.hod ∧ t.layers = s.layers

/-- MIX_ENCODE (R307, R309) of a range of coded courses in a phase that allows it and with no rank LOST: where this block holds the row of one of them, it
enters the encode of that course at the epoch, awaiting every data member, and waits; with no row it completes with DETAIL 0; with all its encodes made it
completes with its rows in DETAIL. RPT_GRAD_REPAIR of courses without a poisoned line completes with DETAIL 0 and changes no line; RPT_FETCH of names of one
course of a LOST rank, its brick decoded, delivers the tiles through EP in ascending order (R309). -/
def Obligations.RepairDescriptors : Prop :=
  ∀ (sid : Nat) (x : Stream) (s : State),
    let q := x.d.part
    (∀ c, Runs s sid 0x75 x → x.mark = 0 → phaseRefuses s q [1, 2, 3] true = none → x.d.src % 16 = 0 → x.d.count % 16 = 0 →
        within x.d.src x.d.count (codedFirst s q) (16 * codedCourses s q) = true →
        rowsIn s q ((x.d.src - codedFirst s q) / 16) (x.d.count / 16) = [c] → brickLocal s q (brickName s q c) = true →
        tierOfLoc (homeOf s q (headerName s q c)) ≠ 2 →
      ∃ t b, exec (.mixEncode sid) s = .next t ∧ findStream t sid = some { x with mark := 1, pos := 1 } ∧
        encodeAt t q c = some { part := q, course := c, epoch := reg s (K.EPOCH q), owed := dataRanks s q c, sid := some sid, begun := b, stopped := false } ∧
        OnlyTraffic { s with mixer := { s.mixer with encodes := t.mixer.encodes }, tracker := t.tracker } t) ∧
    (Runs s sid 0x75 x → x.mark = 0 → phaseRefuses s q [1, 2, 3] true = none → x.d.src % 16 = 0 → x.d.count % 16 = 0 →
        within x.d.src x.d.count (codedFirst s q) (16 * codedCourses s q) = true →
        rowsIn s q ((x.d.src - codedFirst s q) / 16) (x.d.count / 16) = [] →
      ∃ t, exec (.mixEncode sid) s = .next t ∧ Ended s t x 0 0 x.tilesDone ∧ t = { s with tracker := t.tracker }) ∧
    (Runs s sid 0x75 x → x.mark = 1 → encodesOf s sid = [] →
      ∃ t, exec (.mixEncode sid) s = .next t ∧ Ended s t x 0 x.pos x.tilesDone ∧ t = { s with tracker := t.tracker }) ∧
    (∀ v : Nat → Tile, Runs s sid 0x74 x → x.nextIn = 0 → x.pos = 0 → x.mark = 0 → phaseRefuses s q [4, 5] false = none → x.d.src % 16 = 0 →
        x.d.count % 16 = 0 → within x.d.src x.d.count (gradFirst s q) (gradNames s q) = true → (∀ i, i < x.d.count → ReadsYard s q (x.d.src + i) (v i)) →
      ∃ t, exec (.rptGradRepair sid) s = .next t ∧ Ended s t x 0 0 x.tilesDone ∧ t.mem = s.mem ∧ OnlyStorage { s with tracker := t.tracker } t) ∧
    (∀ r : Repair, Runs s sid 0x73 x → x.mark = 0 → x.pos = 0 → x.tilesDone = 0 → phaseRefuses s q [1, 2, 3] false = none →
        rankState s q (x.d.arg % 32) = 1 → x.d.arg % 32 < wyN s q → within x.d.src x.d.count (codedFirst s q) (16 * codedCourses s q) = true →
        0 < x.d.count → (x.d.src - codedFirst s q) % 16 + x.d.count ≤ 16 → sinkHop x.d = stEP →
        findRepair s q ((x.d.src - codedFirst s q) / 16) (x.d.arg % 32) false = some r → r.isDone = true → r.failed = false →
      ∃ t, exec (.rptFetch sid) s = .next t ∧ Ended s t x 0 0 x.d.count ∧
        t.epOut = s.epOut ++ epTiles x 0 ((List.range x.d.count).map (fun i =>
          mkTile (bytesAt r.sum (4096 * ((x.d.src - codedFirst s q) % 16 + i)) 4096) x.d.format (elemCount x.d.format) 0)) ∧
        findRepair t q ((x.d.src - codedFirst s q) / 16) (x.d.arg % 32) false = none ∧ t.mem = s.mem ∧
        OnlyStorage { s with epOut := t.epOut, repairs := t.repairs, tracker := t.tracker } t)

/-- What the wythe's timers do. COMMIT_STALLED of a seal or commit that has made no progress is raised once (R274). DELTA_RESEND sends a gradient brick that
a holder owes an answer for again, and counts (R268). ENCODE_REQ_RESEND asks a data member that still owes its brick again (R307). VERSION_RETRY begins a decode
anew with the same rows (R298). REBUILD_BRICK of a spare in its state pass begins the decode of its only unbuilt brick, and at the pass's end notes the epoch
(R301). Nothing of memory changes. -/
def Obligations.WytheTimers : Prop :=
  ∀ (q course rank : Nat) (s : State), q < 16 → working s = true →
    (∀ (sid : Nat) (x : Stream), findStream s sid = some x → x.taken = true → x.finish = none → x.hold = 0 → (x.d.opcode = 0x71 ∨ x.d.opcode = 0x72) →
      (x.stallRaised = false →
        ∃ t, exec (.commitStalled sid) s = .next t ∧ findStream t sid = some { x with stallRaised := true } ∧ OthersStand s t sid ∧
          t = { s with regs := t.regs, safety := t.safety, tracker := t.tracker } ∧ ∀ k, stateKey k = true → reg t k = reg s k) ∧
      (x.stallRaised = true → exec (.commitStalled sid) s = .next s)) ∧
    (∀ (k : Kept) (v : Nat → Tile), s.mixer.kept.find? (fun k => decide (k.part = q ∧ k.kind = 1 ∧ k.course = codedCourses s q + course)) = some k →
        rank ∈ k.owed → rank ∈ k.rows.take k.sent → k.refused = false → tierOfLoc (homeOf s q (headerName s q k.course)) ≠ 2 →
        (∀ i, i < 16 → HomedYard s q (brickName s q k.course + i) (v i)) →
      ∃ t, exec (.deltaResend q 1 course rank) s = .next t ∧ Counted s t K.DELTA_RESENDS 1 ∧ t.mem = s.mem ∧ OnlyTraffic s t ∧
        t.fabric.out = (sendBrick s q 1 k.course k.epoch (packBrick ((List.range 16).map (fun i => (v i).data))) rank k.who).fabric.out) ∧
    (∀ (e : Encode) (m : Nat), encodeAt s q course = some e → rank ∈ e.owed → e.stopped = false → (q, 1, e.epoch) ∉ s.mixer.arrived → RankReached s q rank m →
      ∃ t, exec (.encodeReqResend q course rank) s = .next t ∧ OnlySent s t ∧
        t.fabric.out = s.fabric.out ++ [toRank s q m { pkt0 with
          type := 0x13, w4 := wyWord s q (ownRank s q) 0 0, w5 := BitVec.ofNat 64 (ownCourse s q course % 2 ^ 44), w6 := BitVec.ofNat 64 e.epoch }]) ∧
    (∀ (lost : Nat) (r : Repair) (p : Plan), openRepair s q course lost = some r →
        (∀ y ∈ s.repairs, y.part = q → y.course = course → y.lost = lost → y = r) → (∀ y ∈ s.repairs, y.again = false) →
        planRepair s (newRepair s q course lost r.mask r.degraded r.prefs r.hold) = .made p → ownRank s q ∉ p.tree →
      ∃ t, exec (.versionRetry q course lost) s = .next t ∧
        t.repairs = s.repairs.filter (fun y => decide (¬ (y.part = q ∧ y.course = course ∧ y.lost = lost ∧ y.hold = r.hold))) ++
          [newRepair s q course lost r.mask r.degraded r.prefs r.hold] ∧
        OnlySent { s with repairs := t.repairs } t) ∧
    (∀ p : Plan, hasWythe s q = true → rankState s q (ownRank s q) = 2 → smapHas s.members.copyFrom q = false → reg s (K.RB_STATE q) = 2 →
        unbuiltIn s q 0 (codedCourses s q) = [course] → (∀ y ∈ s.repairs, ¬ (y.part = q ∧ y.course = course ∧ y.lost = ownRank s q) ∧ y.again = false) →
        planRepair s (newRepair s q course (ownRank s q) fullMask false [] false) = .made p → ownRank s q ∉ p.tree →
      ∃ t, exec (.rebuildBrick q) s = .next t ∧ t.repairs = s.repairs ++ [newRepair s q course (ownRank s q) fullMask false [] false] ∧
        OnlySent { s with repairs := t.repairs } t) ∧
    (hasWythe s q = true → rankState s q (ownRank s q) = 2 → smapHas s.members.copyFrom q = false → reg s (K.RB_STATE q) = 2 →
        unbuiltIn s q 0 (codedCourses s q) = [] → smapGet s.members.passEnd q = none →
      ∃ t, exec (.rebuildBrick q) s = .next t ∧ smapGet t.members.passEnd q = some (reg s (K.EPOCH q)) ∧
        t = { s with members := { s.members with passEnd := t.members.passEnd } })

/-- Snapshots out (R418 to R423). DESCRIPTOR_FETCH of an SNP_BEGIN at a step boundary opens the partition's session: state 1 with the epoch and the
snapshot's id, no record yet; run, it completes with the rank's data bricks in DETAIL. -/
def Obligations.SnapshotCut : Prop :=
  (∀ (q : Nat) (b : List Byte) (s : State), q < 64 → working s = true → epOpen s = true → headReady s q = true → headFirst s q = true →
      smapGet s.tracker.heads q = none → headBytes s q = some b → NumbersFresh s → descRefuses (passHead (headVersion s q).1 q) q (descOf b) = none →
      (descOf b).opcode = 0x80 → commitHolds s (descOf b).part = false → cutRefuses s (descOf b).part false = none →
    let p := (descOf b).part
    ∃ t x, exec (.descriptorFetch q) s = .next t ∧ findStream t s.tracker.nextId = some x ∧ x.d = descOf b ∧ x.ordinal = 1 ∧ x.hold = 0 ∧
      reg t (K.SNP_STATE p) = 1 ∧ reg t (K.SNP_STEP p) = reg s (K.EPOCH p) ∧ reg t (K.SNP_SNAP_ID p) = (descOf b).scalar % 2 ^ 32 ∧
      reg t (K.SNP_RECORDS p) = 0 ∧ reg t (K.SNP_DIGEST p) = 0 ∧
      snapOf t p = some { part := p, bricks := 0, hasLedger := false, ledger := [] }) ∧
  (∀ (sid : Nat) (x : Stream) (s : State), Runs s sid 0x80 x → x.ordinal = 1 →
    ∃ t, exec (.snpBegin sid) s = .next t ∧ Ended s t x 0 (dataBricks s x.d.part) x.tilesDone ∧ t = { s with tracker := t.tracker })

/-- SNP_EXPORT of one brick whose 16 tiles are whole in the yard, in their own format: the record of R420 and R421, 65,600 bytes, leaves through EP in 17 tiles; the
record is counted, its term is added to the digest (R422), and DETAIL is 1. SNP_LEDGER: the ledger's record leaves in one tile. SNP_END of a session that has every
data brick and the ledger closes it (R423); without every brick it ends with status 0x4D and DETAIL 9. No line of memory changes. -/
def Obligations.SnapshotExported : Prop :=
  ∀ (sid : Nat) (y : SnapSession) (x : Stream) (s : State),
    let q := x.d.part
    let same := fun (t : State) => t.mem = s.mem ∧
      t = { s with regs := t.regs, safety := t.safety, life := t.life, tokens := t.tokens, verdicts := t.verdicts, epOut := t.epOut, snaps := t.snaps,
                   tracker := t.tracker } ∧
      ∀ k, stateKey k = true → k ∉ [K.SNP_RECORDS q, K.SNP_DIGEST q, K.SNP_LAST_NAME q] → reg t k = reg s k
    reg s (K.SNP_STATE q) = 1 → snapOf s q = some y → x.tilesDone = 0 →
    (∀ v : Nat → Tile, Runs s sid 0x81 x → x.nextIn = 0 → x.pos = 0 → x.mark = 0 → x.ordinal = 0 → x.text = [] → x.d.count = 16 → x.d.outFormat = 0 →
        exportRange s x = none → reg s K.SNP_MODE ≠ 2 → (∀ i, i < 16 → ReadsYard s q (x.d.src + i) (v i)) →
        exportSuits x.d ((List.range 16).map v) = true →
      let data := ((List.range 16).map (fun i => (v i).data)).flatten
      let h := recordHeader s q 0 0 (v 0).info.format (x.d.arg % 256) ((x.d.src - codedFirst s q) / 16) x.d.src data
      ∃ t, exec (.snpExport sid) s = .next t ∧ Ended s t x 0 1 17 ∧
        t.epOut = s.epOut ++ epTiles x 0 ((List.range 17).map (fun i => mkTile (bytesAt (h ++ data) (4096 * i) 4096) 0 (if i < 16 then 4096 else 64) 0)) ∧
        snapOf t q = some { y with bricks := y.bricks + 1 } ∧ reg t (K.SNP_LAST_NAME q) = x.d.src ∧
        reg t (K.SNP_DIGEST q) = (reg s (K.SNP_DIGEST q) + recordTerm (selfRank s q) 0 x.d.src (leAt h 60 4) (crc32c data)) % 2 ^ 64 ∧
        Counted s t K.SNP_OUT_BYTES 65600 ∧ same t) ∧
    (∀ b, Runs s sid 0x82 x → ledgerPeek s q (reg s (K.LEDGER_SLOT q)) = some b → reg s K.SNP_MODE ≠ 2 →
      let h := recordHeader s q 1 0 0 0 0 nullName b
      ∃ t, exec (.snpLedger sid) s = .next t ∧ Ended s t x 0 0 1 ∧ t.epOut = s.epOut ++ epTiles x 0 [mkTile (h ++ b ++ zeros 3520) 0 576 0] ∧
        snapOf t q = some { y with hasLedger := true } ∧
        reg t (K.SNP_DIGEST q) = (reg s (K.SNP_DIGEST q) + recordTerm (selfRank s q) 1 nullName (leAt h 60 4) (crc32c b)) % 2 ^ 64 ∧ same t) ∧
    (Runs s sid 0x83 x → y.bricks = dataBricks s q → y.hasLedger = true → (∀ z ∈ s.tracker.streams, z.d.part = q → z.hold ≠ 2) →
      ∃ t, exec (.snpEnd sid) s = .next t ∧ Ended s t x 0 0 0 ∧ snapOf t q = none ∧ reg t (K.SNP_STATE q) = 0 ∧
        RegsOnly { s with snaps := t.snaps, tracker := t.tracker } t [K.SNP_STATE q]) ∧
    (Runs s sid 0x83 x → y.bricks ≠ dataBricks s q →
      ∃ t, exec (.snpEnd sid) s = .next t ∧ Ended s t x 0x4D 9 0 ∧ t = { s with tracker := t.tracker })

/-- Snapshots in (R426 to R429). SNP_RESTORE_BEGIN with a manifest header that agrees opens a session in state 2 with the header's step and id. SNP_RESTORE of one
record that nothing refuses writes its brick's tiles, or keeps its ledger, counts it and adds its term to the digest; a record that is refused ends the stream with
status 0x47 and its reason, and the session has failed. SNP_RESTORE_END with a manifest that agrees, in a partition without a wythe map, takes the session's step and
the ledger's seed, is in phase 1, and closes the session. -/
def Obligations.SnapshotRestored : Prop :=
  ∀ (sid : Nat) (v : Tile) (x : Stream) (s : State),
    let q := x.d.part
    (Runs s sid 0x84 x → cutRefuses s q true = none → ReadsYard s q x.d.src v → manifestDiffers s q (bytesAt v.data 0 128) = none →
      ∃ t, exec (.snpRestoreBegin sid) s = .next t ∧ Ended s t x 0 0 x.tilesDone ∧ reg t (K.SNP_STATE q) = 2 ∧ reg t (K.SNP_STEP q) = leAt v.data 8 6 ∧
        reg t (K.SNP_SNAP_ID q) = leAt v.data 4 4 ∧ reg t (K.SNP_RECORDS q) = 0 ∧ reg t (K.SNP_DIGEST q) = 0 ∧
        snapOf t q = some { part := q, bricks := 0, hasLedger := false, ledger := [] } ∧ t.mem = s.mem ∧ t.homes = s.homes) ∧
    (Runs s sid 0x85 x → reg s (K.SNP_STATE q) = 2 → 0 < x.d.count → x.inbox.length = x.d.count → x.tilesDone = 0 → x.pos = 0 → x.mark = 0 →
      let r := recordIn (tilesIn x.inbox)
      let name := leAt r.header 24 8 % 2 ^ 48
      let kind := bits (leAt r.header 0 8) 19 16
      let digest := (reg s (K.SNP_DIGEST q) + recordTerm (selfRank s q) kind name (leAt r.header 60 4) (leAt r.header 40 4)) % 2 ^ 64
      (∀ y, recordRefused s q r = none → kind = 1 → (tilesIn x.inbox).length = 64 + r.payload.length → snapOf s q = some y →
        ∃ t, exec (.snpRestore sid) s = .next t ∧ Ended s t x 0 0 x.d.count ∧ snapOf t q = some { y with hasLedger := true, ledger := r.payload } ∧
          reg t (K.SNP_DIGEST q) = digest ∧ t.mem = s.mem) ∧
      (∀ (y : SnapSession) (k : Nat → Nat), recordRefused s q r = none → kind = 0 → (tilesIn x.inbox).length = 64 + r.payload.length → snapOf s q = some y →
          unbuilt s q ((name - codedFirst s q) / 16) = false → (∀ i, i < 16 → WritesYard s q (name + i) (k i)) → (∀ i j, i < 16 → j < 16 → k i = k j → i = j) →
        ∃ t, exec (.snpRestore sid) s = .next t ∧ Ended s t x 0 0 x.d.count ∧ snapOf t q = some { y with bricks := y.bricks + 1 } ∧
          (∀ i, i < 16 → YardTile t (k i) (((recordTiles r)[i]?).getD (zeroTile 0))) ∧ LinesStand s t ((List.range 16).flatMap (fun i => yardLines (k i))) ∧
          reg t (K.SNP_LAST_NAME q) = name ∧ reg t (K.SNP_DIGEST q) = digest ∧ t.homes = s.homes) ∧
      (∀ d, tilesIn x.inbox ≠ [] → recordRefused s q r = some d →
        ∃ t, exec (.snpRestore sid) s = .next t ∧ Ended s t x 0x47 d x.d.count ∧ reg t (K.SNP_STATE q) = 3 ∧ Counted s t K.SNP_REFUSED_RECORDS 1 ∧
          RegsOnly { s with tracker := t.tracker } t [K.SNP_STATE q, K.SNP_REFUSED_RECORDS])) ∧
    (∀ (slot : Nat) (y : SnapSession), Runs s sid 0x86 x → reg s (K.SNP_STATE q) = 2 → hasWythe s q = false → ReadsYard s q x.d.src v → snapOf s q = some y →
        y.hasLedger = true → y.bricks = dataBricks s q → leAt v.data 124 4 = crc32c (bytesAt v.data 0 124) → leAt v.data 0 1 % 32 = 0 →
        leAt v.data 8 8 = reg s (K.SNP_RECORDS q) → leAt v.data 16 8 = reg s (K.SNP_DIGEST q) →
        slotOf s q (ledgerName s q (1 - reg s (K.LEDGER_SLOT q))) = some slot → slot < 522240 → reg s K.FLIP_STATE ≠ 1 →
        (∀ z ∈ s.tracker.streams, z.d.part = q → z.hold ≠ 2) →
      ∃ t, exec (.snpRestoreEnd sid) s = .next t ∧ Ended s t x 0 0 x.tilesDone ∧ reg t (K.EPOCH q) = reg s (K.SNP_STEP q) ∧ reg t (K.STEP_PHASE q) = 1 ∧
        reg t (K.JOB_SEED q) = (ledgerOf y.ledger).seed ∧ reg t (K.LEDGER_SLOT q) = 1 - reg s (K.LEDGER_SLOT q) ∧ reg t (K.SNP_STATE q) = 0 ∧
        snapOf t q = none ∧ LinesStand s t (yardLines slot) ∧ t.homes = s.homes)

/-- A request to an index and subindex that the manual does not define, where the block's state serves the area, receives 0x06020000 and has no
other effect but its answer (R9): a write by either path, a window request at any offset, and a DMP request of any type; a transfer that is open stays open. -/
def Obligations.UndefinedEntry : Prop :=
  ∀ (idx sub : Nat) (s : State), dictRow idx sub = none →
    (∀ (path : Path) (value : List Byte), alive s = true → dictUp s path = true → serves s path true idx sub = true →
      exec (.dictWrite path idx sub value) s = .next { s with sdo := 0x06020000 }) ∧
    (∀ wseq : Nat, WindowFree s →
      (serves s .ep false idx sub = true →
        (∀ length offset, ∃ t, exec (.winRead idx sub length offset wseq) s = .next t ∧ WindowShows s t 0x06020000 0 [] wseq ∧
          t.mgmt.winXfer = s.mgmt.winXfer) ∧
        (∃ t, exec (.winDescribe idx sub wseq) s = .next t ∧ WindowShows s t 0x06020000 0 [] wseq)) ∧
      (serves s .ep true idx sub = true → ∀ (offset total : Nat) (data : List Byte),
        ∃ t, exec (.winWrite idx sub offset total data wseq) s = .next t ∧ WindowShows s t 0x06020000 0 [] wseq ∧ t.mgmt.winXfer = s.mgmt.winXfer)) ∧
    (∀ f : DmpFrame, f.index = idx → f.sub = sub →
      (serves s .dmp false idx sub = true → ∀ p ∈ [(Instr.readReq f, 0x01), (.describe f, 0x06), (.segRead f, 0x05)], FrameFresh s f p.2 →
        ∃ t, exec p.1 s = .next t ∧ t.sdo = 0x06020000 ∧ Answered s t f (abortTo f 0x06020000) ∧
          (clientOf t f.client).xfer = (clientOf s f.client).xfer) ∧
      (serves s .dmp true idx sub = true → ∀ p ∈ [(Instr.writeExp f, 0x02), (.writeInit f, 0x03), (.segment f, 0x04)], FrameFresh s f p.2 →
        ∃ t, exec p.1 s = .next t ∧ t.sdo = 0x06020000 ∧ Answered s t f (abortTo f 0x06020000) ∧
          (clientOf t f.client).xfer = (clientOf s f.client).xfer))

/-- DMP requests (R442 to R444, R446). READ_REQ of an entry answers its bytes, up to four of them as the value and more as a length that a transfer follows;
WRITE_EXP acts as the write of the entry does and answers; DESCRIBE answers the description; each refusal is an abort with its code. A request takes effect
once: a number already answered is answered again as it was, marked as a duplicate and counted; a frame that is none of this block's requests is discarded
and counted.
Transfers over DMP (R446) and event notes (R448). WRITE_INIT opens a transfer unless the entry bars it, in place of the one before; SEGMENT at the next offset adds its bytes,
and the last one writes the whole value; SEG_READ answers up to 1,024 bytes from its offset and closes the transfer with the last of them;
TRANSFER_ABANDONED leaves a transfer whose next frame receives 0x05040000; NOTIFY sends up to 64 events by the port that has an address. -/
def Obligations.DmpServed : Prop :=
  (∀ (f : DmpFrame) (s : State),
    (FrameFresh s f 0x01 → ∃ t, exec (.readReq f) s = .next t ∧
      (∀ e, dictRead (heard s f) .dmp f.index f.sub = .error e → t.sdo = e ∧ Answered (heard s f) t f (abortTo f e)) ∧
      (∀ b, dictRead (heard s f) .dmp f.index f.sub = .ok b → t.sdo = 0 ∧
        Answered (heard s f) t f (if b.length ≤ 4 then answerTo f 0x81 b.length (beNat b) false [] else answerTo f 0x81 0 b.length false []))) ∧
    (FrameFresh s f 0x02 →
      let r := dictWrite (heard s f) .dmp f.index f.sub (natBe f.size f.value)
      let o := if r.2 = 0 then okTo f else abortTo f r.2
      ∃ t, exec (.writeExp f) s = .next t ∧ t.sdo = r.2 ∧
        (¬ (r.2 = 0 ∧ f.index * 256 + f.sub = K.FP_ATOMIC ∧ r.1.fabric.pendingAtomic = true) → OnlyManaged r.1 t ∧ t.mgmt.out = r.1.mgmt.out ++ [o] ∧
          (r.1.mgmt.clients = (heard s f).mgmt.clients → (f.seq, o) ∈ (clientOf t f.client).answers)) ∧
        (r.2 = 0 → f.index * 256 + f.sub = K.FP_ATOMIC → r.1.fabric.pendingAtomic = true →
          OnlyManaged r.1 t ∧ t.mgmt.out = r.1.mgmt.out ∧ (f.seq, f) ∈ t.mgmt.waiting)) ∧
    (FrameFresh s f 0x06 → ∃ t, exec (.describe f) s = .next t ∧
      (∀ e, dictDescribe s .dmp f.index f.sub = .error e → t.sdo = e ∧ Answered s t f (abortTo f e)) ∧
      (∀ v, dictDescribe s .dmp f.index f.sub = .ok v → t.sdo = 0 ∧ Answered s t f (answerTo f 0x81 0 0 false (natBe 8 v)))) ∧
    (∀ p ∈ dmpCommands f, alive s = true → dictUp s .dmp = true →
      (frameOk s f p.2 = false → ∃ t, exec p.1 s = .next t ∧ Counted s t K.DMP_DISCARDED 1 ∧ RegsOnly s t [K.DMP_DISCARDED]) ∧
      (∀ o : DmpOut, frameOk s f p.2 = true → (clientOf s f.client).answers.find? (fun a => decide (a.1 = f.seq)) = some (f.seq, o) →
        ∃ t, exec p.1 s = .next t ∧ Counted s t K.DMP_DUPLICATES 1 ∧ OnlyManaged s t ∧
          t.mgmt.out = s.mgmt.out ++ [{ o with port := f.port, dst := f.srcMac, vlan := f.vlan, dup := true }]))) ∧
  (∀ (f : DmpFrame) (s : State),
    (FrameFresh s f 0x03 → ∃ t, exec (.writeInit f) s = .next t ∧ t.sdo = writeGate s .dmp f.index f.sub f.value ∧
      (writeGate s .dmp f.index f.sub f.value = 0 → Answered s t f (okTo f) ∧ (clientOf t f.client).xfer =
        some { write := true, index := f.index, sub := f.sub, total := f.value, data := [], abandoned := false }) ∧
      (writeGate s .dmp f.index f.sub f.value ≠ 0 →
        Answered s t f (abortTo f (writeGate s .dmp f.index f.sub f.value)) ∧
        (clientOf t f.client).xfer = if entryGate s .dmp true f.index f.sub = 0 then none else (clientOf s f.client).xfer)) ∧
    (∀ x : Xfer, (clientOf s f.client).xfer = some x → x.abandoned = false → x.index = f.index → x.sub = f.sub →
      (FrameFresh s f 0x04 → entryGate s .dmp true f.index f.sub = 0 → x.write = true → f.value = x.data.length →
        (x.data.length + f.data.length < x.total → f.last = false →
          ∃ t, exec (.segment f) s = .next t ∧ t.sdo = 0 ∧ Answered s t f (okTo f) ∧ (clientOf t f.client).xfer = some { x with data := x.data ++ f.data }) ∧
        (x.data.length + f.data.length = x.total →
          let r := dictWrite (setXfer (heard s f) f.client none) .dmp f.index f.sub (x.data ++ f.data)
          ∃ t, exec (.segment f) s = .next t ∧ t.sdo = r.2 ∧
            (¬ (r.2 = 0 ∧ f.index * 256 + f.sub = K.FP_ATOMIC ∧ r.1.fabric.pendingAtomic = true) →
              OnlyManaged r.1 t ∧ t.mgmt.out = r.1.mgmt.out ++ [if r.2 = 0 then okTo f else abortTo f r.2]))) ∧
      (FrameFresh s f 0x05 → entryGate s .dmp false f.index f.sub = 0 → x.write = false → f.value < x.total →
        ∃ t, exec (.segRead f) s = .next t ∧ t.sdo = 0 ∧
          Answered s t f (answerTo f 0x84 0 f.value (decide (x.total ≤ f.value + 1024)) ((x.data.drop f.value).take 1024)) ∧
          (clientOf t f.client).xfer = if x.total ≤ f.value + 1024 then none else some x)) ∧
    (∀ x : Xfer, (clientOf s f.client).xfer = some x → x.abandoned = true → ∀ p ∈ [(Instr.segment f, 0x04, true), (.segRead f, 0x05, false)], FrameFresh s f p.2.1 →
        entryGate s .dmp p.2.2 f.index f.sub = 0 →
      ∃ t, exec p.1 s = .next t ∧ t.sdo = 0x05040000 ∧ Answered s t f (abortTo f 0x05040000) ∧ (clientOf t f.client).xfer = none) ∧
    (∀ x : Xfer, (clientOf s f.client).xfer = some x → alive s = true →
      ∃ t, exec (.transferAbandoned (.client f.client)) s = .next t ∧ (clientOf t f.client).xfer = some { x with abandoned := true } ∧
        t = { s with mgmt := { s.mgmt with clients := t.mgmt.clients } } ∧
        ∀ c, c ≠ f.client → clientOf t c = clientOf s c) ∧
    (alive s = true → dictUp s .dmp = true →
      (s.safety.notes = [] → exec .notify s = .next s) ∧
      (s.safety.notes ≠ [] → notifyMac s .mga ≠ 0 → notifyMac s .mgb = 0 → s.pins.mga = true →
        ∃ t, exec .notify s = .next t ∧ Counted s t K.DMP_NOTIFY_SENT 1 ∧ t.safety.notes = s.safety.notes.drop 64 ∧
          t.mgmt.notifySeq = (s.mgmt.notifySeq + 1) % 2 ^ 32 ∧
          t.mgmt.out = s.mgmt.out ++ [{
            port := .mga, dst := notifyMac s .mga, vlan := none, type := 0x90, client := 0, seq := s.mgmt.notifySeq, index := 0, sub := 0, size := 0,
            last := false, dup := false, value := 0, data := (s.safety.notes.take 64).flatMap eventBytes }] ∧
          OnlyManaged { s with safety := { s.safety with notes := t.safety.notes } } t)))

/-- The engine-port window (R449, R450). WIN_READ from the start answers the entry's bytes, at most 32 of them, and keeps what remains for the next
chunks; WIN_WRITE chunks gather until the total is reached, when the entry is written; WIN_DESCRIBE answers the description; a submission while one is in
progress is discarded and counted; a transfer that is abandoned answers 0x05040000. -/
def Obligations.WindowRequests : Prop :=
  ∀ (idx sub wseq : Nat) (s : State),
    (WindowFree s →
      (∀ (length : Nat) (e : Nat), dictRead s .ep idx sub = .error e →
        ∃ t, exec (.winRead idx sub length 0 wseq) s = .next t ∧ WindowShows s t e 0 [] wseq) ∧
      (∀ (length : Nat) (b : List Byte), dictRead s .ep idx sub = .ok b →
        ∃ t, exec (.winRead idx sub length 0 wseq) s = .next t ∧ WindowShows s t 0 b.length (b.take (min length 32)) wseq ∧
          (32 < b.length → t.mgmt.winXfer =
            some { write := false, index := idx, sub := sub, total := b.length, data := b.drop (min length 32), abandoned := false })) ∧
      (∀ (length offset : Nat) (x : Xfer), entryGate s .ep false idx sub = 0 → s.mgmt.winXfer = some x → x.abandoned = false → x.write = false → x.index = idx → x.sub = sub → 0 < offset →
          offset + x.data.length = x.total →
        ∃ t, exec (.winRead idx sub length offset wseq) s = .next t ∧ WindowShows s t 0 x.total (x.data.take (min length 32)) wseq ∧
          t.mgmt.winXfer = if x.data.length ≤ min length 32 then none else some { x with data := x.data.drop (min length 32) }) ∧
      (∀ data : List Byte, writeGate s .ep idx sub data.length = 0 →
        let r := dictWrite { s with mgmt := { s.mgmt with winXfer := none } } .ep idx sub data
        ¬ (r.2 = 0 ∧ idx * 256 + sub = K.FP_ATOMIC ∧ r.1.fabric.pendingAtomic = true) →
        ∃ t, exec (.winWrite idx sub 0 data.length data wseq) s = .next t ∧ WindowShows r.1 t r.2 0 [] wseq) ∧
      (∀ (total : Nat) (data : List Byte), writeGate s .ep idx sub total = 0 → data.length < total →
        ∃ t, exec (.winWrite idx sub 0 total data wseq) s = .next t ∧ WindowShows s t 0 0 [] wseq ∧
          t.mgmt.winXfer = some { write := true, index := idx, sub := sub, total := total, data := data, abandoned := false }) ∧
      (∀ e, dictDescribe s .ep idx sub = .error e → ∃ t, exec (.winDescribe idx sub wseq) s = .next t ∧ WindowShows s t e 0 [] wseq) ∧
      (∀ v, dictDescribe s .ep idx sub = .ok v → ∃ t, exec (.winDescribe idx sub wseq) s = .next t ∧ WindowShows s t 0 0 (natLe 8 v) wseq) ∧
      (∀ (length offset : Nat) (x : Xfer), entryGate s .ep false idx sub = 0 → s.mgmt.winXfer = some x → x.abandoned = true → 0 < offset →
        ∃ t, exec (.winRead idx sub length offset wseq) s = .next t ∧ WindowShows s t 0x05040000 0 [] wseq ∧ t.mgmt.winXfer = none)) ∧
    (∀ x : Xfer, alive s = true → s.mgmt.winXfer = some x →
      exec (.transferAbandoned .window) s = .next { s with mgmt := { s.mgmt with winXfer := some { x with abandoned := true } } }) ∧
    (alive s = true → dictUp s .ep = true → s.mgmt.busy.isSome = true → ∀ (length offset total : Nat) (data : List Byte),
      ∀ c ∈ [Instr.winRead idx sub length offset wseq, .winWrite idx sub offset total data wseq, .winDescribe idx sub wseq],
        ∃ t, exec c s = .next t ∧ Counted s t K.WIN_OVERRUNS 1 ∧ RegsOnly s t [K.WIN_OVERRUNS])

/-- The home map's states (R79, R500). A write of 1 to HM_STATE while it is 0, with no job attached and the conditions of R79 met, sets it to 2; HM_INIT_DONE
sets it to 1, every entry of both copies unmapped and every entry of the partition gone; a write of 0 while nothing needs the map sets it to 0 and ends the
homes; each condition unmet has its abort code and changes nothing. HM_ADOPT of a map that holds one home, in the yard, turns the map on with that home and
the slot zero-filled; a scan that meets a conflict is refused. Other partitions' entries stand.
The wythe map's states (R232, R233, R260). A write of 1 to WYTHE_STATE past every check turns the map on and remembers each rank's node; a check that
fails leaves its number in WYTHE_REFUSED and answers its abort code. A write of 0 is accepted unless a job is attached that runs or rejoins. -/
def Obligations.MapEntries : Prop :=
  (∀ (q : Nat) (path : Path) (s : State), q < 16 →
    let gone := fun (t : State) => (∀ k, q * 2 ^ 48 ≤ k → k < (q + 1) * 2 ^ 48 → smapGet t.homes.entries k = none) ∧
      ∀ k, ¬ (q * 2 ^ 48 ≤ k ∧ k < (q + 1) * 2 ^ 48) → smapGet t.homes.entries k = smapGet s.homes.entries k
    (Writable s path (0x2210 + q) 5 1 →
      (jobAttached s q = false → reg s (K.HM_STATE q) = 0 → mapFormed s q = true →
        ∃ t, exec (.hmStateOn path q) s = .next t ∧ reg t (K.HM_STATE q) = 2 ∧ RegsOnly { s with sdo := 0 } t [K.HM_STATE q]) ∧
      ((jobAttached s q = true ∨ reg s (K.HM_STATE q) ≠ 0) → exec (.hmStateOn path q) s = .next { s with sdo := 0x08000022 }) ∧
      (jobAttached s q = false → reg s (K.HM_STATE q) = 0 → mapFormed s q = false → exec (.hmStateOn path q) s = .next { s with sdo := 0x06090030 }) ∧
      (jobAttached s q = false → mapInUse s q = false →
        ∃ t, exec (.hmStateOff path q) s = .next t ∧ reg t (K.HM_STATE q) = 0 ∧ gone t ∧
          RegsOnly { s with sdo := 0, homes := { s.homes with entries := t.homes.entries, lru := t.homes.lru } } t [K.HM_STATE q]) ∧
      ((jobAttached s q = true ∨ mapInUse s q = true) → exec (.hmStateOff path q) s = .next { s with sdo := 0x08000022 })) ∧
    (working s = true →
      (reg s (K.HM_STATE q) = 2 →
        ∃ t, exec (.hmInitDone q) s = .next t ∧ reg t (K.HM_STATE q) = 1 ∧ gone t ∧ RegsOnly { s with homes := t.homes } t [K.HM_STATE q] ∧
          ∀ i, i < reg s (K.HM_NAMES q) → mapWord t (reg s (K.HM_COPY_A q) / 8 + i) = 3 ∧ mapWord t (reg s (K.HM_COPY_B q) / 8 + i) = 3) ∧
      (reg s (K.HM_STATE q) ≠ 2 → exec (.hmInitDone q) s = .next s)) ∧
    (Writable s path (0x2240 + q) 0 1 →
      ((reg s (K.HM_STATE q) ≠ 0 ∨ mapFormed s q = false) → exec (.hmAdopt path q) s = .next { s with sdo := 0x06090030 }) ∧
      (reg s (K.HM_STATE q) = 0 → mapFormed s q = true → ∀ u : State,
        (adoptScan q (reg s (K.HM_NAMES q) / 8 + 1) 0 s [] = (u, none) → exec (.hmAdopt path q) s = .next { s with sdo := 0x08000022 }) ∧
        (∀ name e k, adoptScan q (reg s (K.HM_NAMES q) / 8 + 1) 0 s [] = (u, some [(name, e)]) → locOfEntry e = .yard k → k < 522240 →
            reg u K.FLIP_STATE ≠ 1 →
          ∃ t, exec (.hmAdopt path q) s = .next t ∧ t.sdo = 0 ∧ reg t (K.HM_STATE q) = 1 ∧ reg t (K.HM_ADOPT_ZEROED q) = 1 ∧ YardTile t k (zeroTile 0) ∧
            LinesStand u t (yardLines k) ∧ smapGet t.homes.entries (q * 2 ^ 48 + name) = some e ∧ HomesStand u t q name 1)))) ∧
  (∀ (q : Nat) (path : Path) (s : State), q < 16 → Writable s path (0x3010 + q) 1 1 →
    (working s = true → reg s (K.WYTHE_STATE q) ≠ 1 → wytheRefused s q = none →
      ∃ t, exec (.wytheStateOn path q) s = .next t ∧ reg t (K.WYTHE_STATE q) = 1 ∧ reg t (K.WYTHE_REFUSED q) = 0 ∧ hasWythe t q = true ∧
        RegsOnly { s with sdo := 0, members := { s.members with nodes := t.members.nodes } } t [K.WYTHE_STATE q, K.WYTHE_REFUSED q] ∧
        (∀ r n, r < wyN s q → memberNode s q r = some n → smapGet t.members.nodes (q * 32 + r) = some n)) ∧
    (∀ c code, reg s (K.WYTHE_STATE q) ≠ 1 → wytheRefused s q = some (c, code) →
      ∃ t, exec (.wytheStateOn path q) s = .next t ∧ reg t (K.WYTHE_REFUSED q) = c ∧ RegsOnly { s with sdo := code } t [K.WYTHE_REFUSED q]) ∧
    (reg s (K.WYTHE_STATE q) = 1 → exec (.wytheStateOn path q) s = .next { s with sdo := 0x08000022 }) ∧
    (reg s (K.JOB_STATE q) ≠ 2 → reg s (K.JOB_STATE q) ≠ 4 →
      ∃ t, exec (.wytheStateOff path q) s = .next t ∧ reg t (K.WYTHE_STATE q) = 0 ∧ RegsOnly { s with sdo := 0 } t [K.WYTHE_STATE q]) ∧
    ((reg s (K.JOB_STATE q) = 2 ∨ reg s (K.JOB_STATE q) = 4) → exec (.wytheStateOff path q) s = .next { s with sdo := 0x08000022 }))

/-- Entries with a range and nothing more (R503): while a job locks one a write receives 0x08000022, a value out of range 0x06090030, and nothing changes; a
value within it is taken. TREF_HZ sets the nominal increment (R455); TB_SOURCE and MSN_PTP_MODE begin the discipline they select (R457).
Entries whose writes have effects of their own. EV_CONSUMER frees entries of the ring up to its producer (R395). SAF_TEST of 0xA5 with no job attached drives
SAFE_FAULT with cause 7 (R407, R412), over DMP only. FLIP_STATE 1 arms a mask that is not zero and 0 disarms it (R414). TB_SET sets the timebase while nothing disciplines it,
and TB_ADJUST its increment and phase in mode 2 (R457, R461). FW_IMAGE in the bare state takes the image (R453). Every write out of place has its abort
code and changes nothing. -/
def Obligations.EntriesWritten : Prop :=
  (∀ (path : Path) (idx sub v : Nat) (r : DRow) (l : Limit) (s : State), dictRow idx sub = some r → fixedType r.ty = true → limitOf idx sub = some l →
    v < 2 ^ (8 * r.size) → Writable s path idx sub r.size →
    let c := Instr.dictWrite path idx sub (numberBytes path r.size v)
    (locked s l idx sub = true → exec c s = .next { s with sdo := 0x08000022 }) ∧
    (locked s l idx sub = false → (v < l.least ∨ l.most < v) → exec c s = .next { s with sdo := 0x06090030 }) ∧
    (locked s l idx sub = false → l.least ≤ v → v ≤ l.most →
      ∃ t, exec c s = .next t ∧ t.sdo = 0 ∧ reg t (idx * 256 + sub) = v ∧
        (idx ∉ [0x2401, 0x2E01, 0x5003, 0x5004] → RegsOnly { s with sdo := 0, tokens := t.tokens } t [idx * 256 + sub]) ∧
        (idx = 0x2401 → t.digests = (if v = 1 then s.digests else []) ∧ RegsOnly { s with sdo := 0, digests := t.digests } t [idx * 256 + sub]) ∧
        (idx = 0x5004 → reg t K.TB_INCREMENT = nominalIncrement t ∧ RegsOnly { s with sdo := 0 } t [idx * 256 + sub, K.TB_INCREMENT]) ∧
        (idx = 0x2E01 ∨ idx = 0x5003 → reg t K.PTP_STATE = (if reg t K.TB_SOURCE = 1 ∧ reg t K.MSN_PTP_MODE ≠ 0 then 1 else 0) ∧
          reg t K.TB_INCREMENT = nominalIncrement t ∧ t.time.tb = s.time.tb ∧
          RegsOnly { s with sdo := 0, time := t.time, strs := t.strs } t [idx * 256 + sub, K.TB_INCREMENT, K.PTP_STATE, K.PTP_PORT]))) ∧
  (∀ (path : Path) (s : State),
    (∀ v, Writable s path 0x6003 0 4 → v < 2 ^ 32 →
      let ahead := fun x => (x + 2 ^ 32 - reg s K.EV_CONSUMER) % 2 ^ 32
      (ahead v ≤ ahead (reg s K.EV_PRODUCER) →
        ∃ t, exec (.evConsumer path v) s = .next t ∧ reg t K.EV_CONSUMER = v ∧ RegsOnly { s with sdo := 0 } t [K.EV_CONSUMER]) ∧
      (ahead (reg s K.EV_PRODUCER) < ahead v → exec (.evConsumer path v) s = .next { s with sdo := 0x06090030 })) ∧
    (∀ v, v < 256 →
      (alive s = true → dictUp s .ep = true → serves s .ep true 0x6010 6 = true → exec (.safTest .ep v) s = .next { s with sdo := 0x06010002 }) ∧
      (Writable s path 0x6010 6 1 →
        (anyJob s = true → exec (.safTest path v) s = .next { s with sdo := 0x08000022 }) ∧
        (anyJob s = false → v ≠ 0xA5 → exec (.safTest path v) s = .next { s with sdo := 0x06090030 }) ∧
        (anyJob s = false → v = 0xA5 → reg s K.SAFE_STATE ≠ 2 →
          ∃ t, exec (.safTest path v) s = .next t ∧ t.sdo = 0 ∧ reg t K.SAFE_STATE = 2 ∧ reg t K.SAF_CAUSE = 7 ∧ reg t K.SAF_TIME = stamp s ∧
            reg t K.SAF_SUSPECT_SINCE = stamp s ∧ t.pins.safeT = true ∧ t.pins.safeC = false))) ∧
    (Writable s path 0xA010 3 1 →
      let bad := decide (allZero (strN s K.FLIP_MASK 68) = true ∨ 2 ^ 16 ≤ reg s K.FLIP_TARGET ∨
        ((reg s K.FLIP_TARGET).testBit 9 = true ∧ 15 < reg s K.FLIP_TARGET % 512))
      (reg s K.FLIP_STATE = 1 → exec (.flipStateArm path) s = .next { s with sdo := 0x08000022 }) ∧
      (reg s K.FLIP_STATE ≠ 1 → bad = true → exec (.flipStateArm path) s = .next { s with sdo := 0x06090030 }) ∧
      (reg s K.FLIP_STATE ≠ 1 → bad = false →
        ∃ t, exec (.flipStateArm path) s = .next t ∧ reg t K.FLIP_STATE = 1 ∧ RegsOnly { s with sdo := 0 } t [K.FLIP_STATE]) ∧
      (∃ t, exec (.flipStateDisarm path) s = .next t ∧ reg t K.FLIP_STATE = 0 ∧ RegsOnly { s with sdo := 0 } t [K.FLIP_STATE])) ∧
    (∀ b : List Byte, Writable s path 0x5002 0 b.length →
      (reg s K.PTP_STATE ≠ 0 → exec (.tbSet path b) s = .next { s with sdo := 0x08000022 }) ∧
      (reg s K.PTP_STATE = 0 → 1000000000 ≤ leAt b 2 4 → exec (.tbSet path b) s = .next { s with sdo := 0x06090030 }) ∧
      (reg s K.PTP_STATE = 0 → leAt b 2 4 < 1000000000 →
        ∃ t, exec (.tbSet path b) s = .next t ∧ t.time.tb = leAt b 0 2 + leAt b 2 4 * 65536 + leAt b 6 6 * tbSecond ∧ Counted s t K.TB_STEPS 1 ∧
          RegsOnly { s with sdo := 0, strs := t.strs, time := { s.time with tb := t.time.tb } } t [K.TB_STEPS])) ∧
    (∀ b : List Byte, Writable s path 0x5010 0 b.length →
      (reg s K.MSN_PTP_MODE ≠ 2 → exec (.tbAdjust path b) s = .next { s with sdo := 0x08000022 }) ∧
      (reg s K.MSN_PTP_MODE = 2 → slewOk s (leAt b 0 4) = false → exec (.tbAdjust path b) s = .next { s with sdo := 0x06090030 }) ∧
      (reg s K.MSN_PTP_MODE = 2 → slewOk s (leAt b 0 4) = true → s.time.tb < tbWrap →
        ∃ t, exec (.tbAdjust path b) s = .next t ∧ reg t K.TB_INCREMENT = leAt b 0 4 ∧
          (t.time.tb : Int) = ((s.time.tb : Int) + signedOf 64 (leAt b 4 8)) % (tbWrap : Int) ∧
          (signedOf 64 (leAt b 4 8) = 0 → reg t K.TB_STEPS = reg s K.TB_STEPS) ∧ (signedOf 64 (leAt b 4 8) ≠ 0 → Counted s t K.TB_STEPS 1) ∧
          RegsOnly { s with sdo := 0, time := { s.time with tb := t.time.tb } } t [K.TB_INCREMENT, K.TB_STEPS])) ∧
    (∀ b : List Byte, Writable s path 0x1F50 1 b.length →
      let open' := s.mason.bare && decide (reg s K.FW_STATUS ≠ 2 ∧ reg s K.SAFE_STATE ≠ 2)
      (open' = false → exec (.fwImage path b) s = .next { s with sdo := 0x08000022 }) ∧
      (open' = true →
        ∃ t, exec (.fwImage path b) s = .next t ∧ t.mason.image = b ∧ reg t K.FW_STATUS = 1 ∧ reg t K.FW_REFUSED = 0 ∧
          RegsOnly { s with sdo := 0, mason := { s.mason with image := b } } t [K.FW_STATUS, K.FW_REFUSED])))

/-- The lifetime recorder (R465 to R469). LIFE_RECORD of this block's own record while none is restored adds every counter and bin to those since start-up; one of another
layout or CRC, one of other tiers, and a second one are refused. LIFE_SHUTDOWN 1 and LIFE_PUSH push the record in four frames by each port that can carry it; LIFE_SHUTDOWN 2 begins a new epoch.
A sample of the grid, or of a station's latency, adds one to its bin and to nothing else. -/
def Obligations.LifetimeRecorder : Prop :=
  ∀ (path : Path) (s : State),
    let base := fun h => if h = 0 then 256 else if h ≤ 8 then 516 + 132 * (h - 1) else 1572
    let pushed := fun (o : Bool) (t : State) =>
      t.life = { s.life with pushSeq := s.life.pushSeq + 1, orderly := o } ∧ Counted s t K.LIFE_PUSHES 1 ∧
      t.mgmt.out = s.mgmt.out ++ (notifyPorts s).flatMap (fun p => (List.range 4).map (fun i =>
        ({ port := p, dst := notifyMac s p, vlan := none, type := 0x84, client := 0, seq := (s.life.pushSeq + 1) % 2 ^ 32, index := 0x8100, sub := 0,
           size := 0, last := decide (i = 3), dup := false, value := 1024 * i, data := bytesAt (lifeRecord { s with life := t.life }) (1024 * i) 1024 } : DmpOut))) ∧
      OnlyManaged { s with life := t.life } t
    let added := fun (h b : Nat) (t : State) =>
      binGet t h b = min (binGet s h b + 1) (2 ^ 32 - 1) ∧ (∀ n, n ≠ h * 1024 + b → smapGet t.life.hist n = smapGet s.life.hist n) ∧
      t = { s with life := { s.life with hist := t.life.hist } }
    (∀ b : List Byte, Writable s path 0x8100 0 b.length →
      ((reg s K.LIFE_STATE ≠ 0 ∨ reg s K.MSN_LIFE_MODE = 0) → exec (.lifeRecord path b) s = .next { s with sdo := 0x08000022 }) ∧
      (reg s K.LIFE_STATE = 0 → reg s K.MSN_LIFE_MODE ≠ 0 →
        ((leAt b 0 2 ≠ 1 ∨ leAt b 4092 4 ≠ crc32c (bytesAt b 0 4092)) → exec (.lifeRecord path b) s = .next { s with sdo := 0x06090030 }) ∧
        (leAt b 0 2 = 1 → leAt b 4092 4 = crc32c (bytesAt b 0 4092) → bytesAt b 32 80 ≠ (List.range 5).flatMap tierBytes →
          exec (.lifeRecord path b) s = .next { s with sdo := 0x08000020 }) ∧
        (leAt b 0 2 = 1 → leAt b 4092 4 = crc32c (bytesAt b 0 4092) → bytesAt b 32 80 = (List.range 5).flatMap tierBytes →
          ∃ t, exec (.lifeRecord path b) s = .next t ∧ reg t K.LIFE_STATE = 1 ∧ t.life.epochId = leAt b 4 4 ∧ t.life.pushSeq = leAt b 8 8 ∧
            (∀ i ∈ lifeCounters, reg t (ltKey i) = min (reg s (ltKey i) + leAt b (128 + 8 * (i - 1)) 8) (2 ^ 64 - 1)) ∧
            (∀ h i, h < 10 → i < histBins h → binGet t h i = min (binGet s h i + leAt b (base h + 4 * i) 4) (2 ^ 32 - 1)) ∧
            RegsOnly { s with sdo := 0, life := t.life } t (K.LIFE_STATE :: lifeCounters.map ltKey)))) ∧
    (Writable s path 0x8101 0 1 →
      (reg s K.MSN_LIFE_MODE = 1 → notifyPorts s ≠ [] → ∃ t, exec (.lifeShutdownPush path) s = .next t ∧ t.sdo = 0 ∧ pushed true t) ∧
      (reg s K.MSN_LIFE_MODE ≠ 1 → exec (.lifeShutdownPush path) s = .next { s with sdo := 0 }) ∧
      (reg s K.LIFE_STATE = 0 → ∃ t, exec (.lifeShutdownMissing path) s = .next t ∧ reg t K.LIFE_STATE = 2 ∧
        t.life = { s.life with epochId := reg s K.FP_BOOT_NONCE, pushSeq := 0, gap := true } ∧ RegsOnly { s with sdo := 0, life := t.life } t [K.LIFE_STATE]) ∧
      (reg s K.LIFE_STATE ≠ 0 → exec (.lifeShutdownMissing path) s = .next { s with sdo := 0x08000022 })) ∧
    (recording s = true →
      (reg s K.MSN_LIFE_MODE = 1 → notifyPorts s ≠ [] → ∃ t, exec .lifePush s = .next t ∧ pushed false t) ∧
      (reg s K.MSN_LIFE_MODE = 1 → notifyPorts s = [] →
        ∃ t, exec .lifePush s = .next t ∧ Counted s t K.LIFE_PUSH_DROPPED 1 ∧ RegsOnly s t [K.LIFE_PUSH_DROPPED]) ∧
      (∃ t, exec .lifeGridSample s = .next t ∧ added 0 (gridBin (lowestMv s) (highestTemp s)) t) ∧
      (∀ (station ps h : Nat), latencyHist station = some h →
        ∃ t, exec (.lifeLatencySample station ps) s = .next t ∧
          added h (latencyBin (ps * (speedNow s).1) ((speedNow s).2 * (Config.katReference station + 1))) t))

/-- The scrubber and the verification of mortar (R390 to R393, R405). SCRUB_LINE of a yard line that is clean counts it and moves on; of one with a single symbol wrong, in
no coded brick, corrects it and changes no other line; at the lap's end the lap counts and begins again. SCR_LAP_LIMIT is raised when the lap has
passed a further limit. SCR_HOST_RANGE in mode 2 walks the range it names. MORTAR_VERIFY with a sample under way asks a member for its next tile. -/
def Obligations.LinesScrubbed : Prop :=
  ∀ (line : Nat) (s : State), line < 522240 * 64 →
    let on := { s with scrub := { s.scrub with pos := s.scrub.pos + 1 } }
    (working s = true → reg s K.SCR_MODE = 1 → lapLine (lapRuns s) s.scrub.pos = some (16, line) → s.scrub.pos + 1 < lapLines s →
      (markOf s.mem (64 * line) = 0 →
        ∃ t, exec .scrubLine s = .next t ∧ Counted s t K.SCR_LINES 1 ∧ RegsOnly on t [K.SCR_LINES]) ∧
      (foundOf (markOf s.mem (64 * line)) = .corrected 1 → (∀ q name, ownerOf s (.yard (line / 64)) = some (q, name) → isCodedData s q name = false) →
        ∃ t, exec .scrubLine s = .next t ∧ Counted s t K.SCR_LINES 1 ∧ Counted s t K.SCR_CORRECTED 1 ∧ Counted s t K.RS_CORR1 1 ∧
          markOf t.mem (64 * line) = 0 ∧ readBytes t.mem (64 * line) 64 = (peekLine s.mem (64 * line)).bytes ∧ LinesStand s t [64 * line] ∧
          OnlyStorage on t)) ∧
    (working s = true → reg s K.SCR_MODE = 1 → lapLine (lapRuns s) s.scrub.pos = none →
      ∃ t, exec .scrubLine s = .next t ∧ Counted s t K.SCR_LAPS 1 ∧ reg t K.SCR_LAST_LAP_S = (upNs s - s.scrub.lapStart) / 1000000000 % 2 ^ 32 ∧
        RegsOnly { s with scrub := { pos := 0, lapStart := upNs s, limitHits := 0, ranges := [] } } t [K.SCR_LAPS, K.SCR_LAST_LAP_S]) ∧
    (working s = true → reg s K.SCR_MODE ≠ 1 → exec .scrubLine s = .next s) ∧
    (working s = true → reg s K.SCR_MODE ≠ 0 →
      let due := decide (reg s K.SCR_LAP_LIMIT_S * (s.scrub.limitHits + 1) ≤ (upNs s - s.scrub.lapStart) / 1000000000)
      (due = true → ∃ t, exec .scrLapLimit s = .next t ∧ Seen t 0x12 ∧ t.scrub = { s.scrub with limitHits := s.scrub.limitHits + 1 } ∧
        t = { s with regs := t.regs, safety := t.safety, scrub := t.scrub } ∧ ∀ k, stateKey k = true → reg t k = reg s k) ∧
      (due = false → exec .scrLapLimit s = .next s)) ∧
    (∀ (path : Path) (b : List Byte), Writable s path 0x2B08 0 b.length →
      (reg s K.SCR_MODE ≠ 2 → exec (.scrHostRange path b) s = .next { s with sdo := 0x08000022 }) ∧
      (reg s K.SCR_MODE = 2 → 16 < leAt b 0 1 % 32 → exec (.scrHostRange path b) s = .next { s with sdo := 0x06090030 }) ∧
      (reg s K.SCR_MODE = 2 → leAt b 0 1 % 32 = 16 → leAt b 8 8 = line → leAt b 16 4 = 1 → markOf s.mem (64 * line) = 0 → s.scrub.ranges = [] →
        ∃ t, exec (.scrHostRange path b) s = .next t ∧ Counted s t K.SCR_LINES 1 ∧ str t K.SCR_HOST_RANGE = b ∧
          RegsOnly { s with sdo := 0, strs := t.strs, scrub := { s.scrub with ranges := [(16, line, 1)] } } t [K.SCR_LINES])) ∧
    (∀ q : Nat, q < 16 → working s = true →
      (verifies s q = false → sampleOf s q = none → exec (.mortarVerify q) s = .next s) ∧
      (∀ (v : Verify) (k e : Nat), sampleOf s q = some v → sampleStands s v = true → v.toAsk = [k] → memberEntry s q (k / 16) = some e →
        let r := sendLoad s q (e % 256) (brickName s q v.course + k % 16 - reg s (K.APERTURE_FIRST q) % 2 ^ 48) (.verify q v.course k) (arrivalWho s q)
        r.2 = .sent →
        ∃ t, exec (.mortarVerify q) s = .next t ∧ sampleOf t q = some { v with toAsk := [] } ∧ t.fabric.out = r.1.fabric.out ∧ t.fabric.reqs = r.1.fabric.reqs ∧
          OnlySent { s with safety := { s.safety with verify := t.safety.verify } } t))

/-- The fabric's commands by the dictionary (R328, R329, R341 to R343). FP_ATOMIC sends the atomic of its record through its window, or holds it until earlier stores to the node are answered;
BG_REPLACE of a position writes the position's new node into the table; BG_BCAST at a root without children copies its source to its own destination and is done.
Each refusal has its abort code.
The abort codes of BG_REPLACE and BG_BCAST are the model's choice: log entry 95. -/
def Obligations.FabricEntries : Prop :=
  ∀ (path : Path) (s : State),
    (∀ b : List Byte, Writable s path 0x2F05 0 b.length →
      let w0 := leAt b 0 8
      let q := w0 % 16
      let op := w0 / 4096 % 8
      let x := windowOf s q (w0 / 16 % 256)
      let o := leAt b 8 8
      let p : Packet := { pkt0 with
        level := reg s (K.FP_LEVEL q), type := 0x04, partition := x.part, dst := x.node, address := (x.base * 4096 + o) % 2 ^ 48,
        w4 := BitVec.ofNat 64 (leAt b 16 8), w5 := BitVec.ofNat 64 (leAt b 24 8), w6 := BitVec.ofNat 64 op }
      let busy := s.fabric.pendingAtomic || decide (op = 5 ∧ reg s (K.DET_POLICY q) = 1)
      let formed := decide (w0 < 2 ^ 15 ∧ op ≤ 5 ∧ o < 2 ^ 48)
      (busy = true → exec (.fpAtomic path b) s = .next { s with sdo := 0x08000022 }) ∧
      (busy = false → formed = false → exec (.fpAtomic path b) s = .next { s with sdo := 0x06090030 }) ∧
      (busy = false → formed = true → windowAllows s q x x.at_ (o / 4096) = false →
        ∃ t, exec (.fpAtomic path b) s = .next t ∧ Counted s t K.FP_WINDOW_REFUSED 1 ∧ RegsOnly { s with sdo := 0x06010000 } t [K.FP_WINDOW_REFUSED]) ∧
      (∀ tag, busy = false → formed = true → windowAllows s q x x.at_ (o / 4096) = true → (∀ r ∈ s.fabric.reqs, ¬ (r.node = x.node ∧ r.type = 0x02)) →
          freeTag s = some tag → fpOpen s = true →
        ∃ t, exec (.fpAtomic path b) s = .next t ∧ t.fabric.pendingAtomic = true ∧
          t.fabric.out = s.fabric.out ++ [sealHdr { p with src := reg s K.FP_NODE_ID, tag := tag }] ∧
          t.fabric.reqs = s.fabric.reqs ++ [{ tag := tag, type := 0x04, op := op, lines := 0, node := x.node, use := .atomic }] ∧ OnlySent { s with sdo := 0 } t) ∧
      (∀ r ∈ s.fabric.reqs, busy = false → formed = true → windowAllows s q x x.at_ (o / 4096) = true → r.node = x.node → r.type = 0x02 →
        ∃ t, exec (.fpAtomic path b) s = .next t ∧ t.fabric = { s.fabric with heldAtomic := some p, pendingAtomic := true } ∧ OnlySent { s with sdo := 0 } t)) ∧
    (∀ q v : Nat, q < 16 → v < 2 ^ 64 → Writable s path (0x2F30 + q) 6 8 →
      let pos := v % 65536
      let bad := decide (reg s (K.BG_STATE q) ≠ 1 ∨ reg s (K.BG_SIZE q) ≤ pos) || (positionNode s q pos).isNone
      (reg s (K.BG_STATE q) ≠ 1 → exec (.bgReplace path q v) s = .next { s with sdo := 0x08000022 }) ∧
      (reg s (K.BG_STATE q) = 1 → reg s (K.BG_SIZE q) ≤ pos → exec (.bgReplace path q v) s = .next { s with sdo := 0x06090030 }) ∧
      (∀ k, bad = false → bcastOf s q = none → slotOf s q (reg s (K.BG_TABLE q) % 2 ^ 48 + 4 * pos / 4096) = some k → k < 522240 → reg s K.FLIP_STATE ≠ 1 →
          markOf s.mem (yardAddr k (4 * pos % 4096 / 64)) = 0 →
        ∃ t, exec (.bgReplace path q v) s = .next t ∧ t.sdo = 0 ∧ reg t (K.BG_REPLACE q) = v ∧ positionNode t q pos = some (v / 2 ^ 16 % 2 ^ 32) ∧
          LinesStand s t [yardAddr k (4 * pos % 4096 / 64), yardMetaAddr k] ∧ t.homes = s.homes ∧
          ∀ k, stateKey k = true → k ≠ K.BG_REPLACE q → reg t k = reg s k)) ∧
    (∀ (q : Nat) (b : List Byte), q < 16 → Writable s path (0x2F30 + q) 7 b.length →
      let root := decide (reg s (K.BG_STATE q) = 1 ∧ reg s (K.BG_POSITION q) = 0)
      (root = false → exec (.bgBcast path q b) s = .next { s with sdo := 0x08000022 }) ∧
      (∀ (v : Tile) (k : Nat), root = true → childrenOf s q = [] → bcastOf s q = none → leAt b 8 4 = 1 → ReadsYard s q (leAt b 0 6) v →
          WritesYard s q (leAt b 16 6) k →
        ∃ t, exec (.bgBcast path q b) s = .next t ∧ t.sdo = 0 ∧ reg t (K.BCAST_STATUS q) = 2 ∧ YardTile t k v ∧ LinesStand s t (yardLines k) ∧
          t.homes = s.homes ∧ t.fabric = s.fabric ∧ ∀ k, stateKey k = true → k ≠ K.BCAST_STATUS q → reg t k = reg s k))

/-- What the safety monitor detects (R348, R401 to R407), in a block that is not in the safe state. A known-answer slot that passes is the group's last pass; one that fails drives SAFE_FAULT with cause 2,
suspect since the pass before, and takes the group out. A lockstep miscompare drives cause 1 and leaves the mason in its diagnostic state. A mutual check that
fails drives cause 6. A watchdog trip takes its lane group out, with cause 5 where the station has none left, and elsewhere drives cause 3. An
excursion of 1 µs beyond a rail's range or a junction above 110 °C drives cause 4, and a shorter or a smaller one does nothing. A region sample is
held, and regions that differ too much are counted. -/
def Obligations.FaultsDetected : Prop :=
  ∀ s : State,
    (∀ g : Nat, g < 160 → working s = true →
      ((lgOut s).testBit g = true → ∀ pass, exec (.knownAnswerSlot g pass) s = .next s) ∧
      ((lgOut s).testBit g = false →
        (∃ t, exec (.knownAnswerSlot g true) s = .next t ∧ Counted s t K.KAT_RUNS 1 ∧ smapGet t.safety.katPass g = some (stamp s) ∧
          RegsOnly { s with safety := { s.safety with katPass := t.safety.katPass } } t [K.KAT_RUNS]) ∧
        (∃ t, exec (.knownAnswerSlot g false) s = .next t ∧ Counted s t K.KAT_FAILS 1 ∧ (lgOut t).testBit g = true ∧
          Faults s t 2 (nodeWord (groupStation g) g false) ((smapGet s.safety.katPass g).getD 0)))) ∧
    (alive s = true → reg s K.SAFE_STATE ≠ 2 →
      (reg s K.START_STAGE < 2 → exec .lockstepMiscompare s = .next s) ∧
      (2 ≤ reg s K.START_STAGE → ∃ t, exec .lockstepMiscompare s = .next t ∧ Faults s t 1 (nodeWord stMSN 0 true) (stamp s) ∧ t.mason.diag = true ∧
        t.mgmt.clients = [] ∧ t.mgmt.busy = none) ∧
      exec (.safMutualCheck true) s = .next s ∧
      (∃ t, exec (.safMutualCheck false) s = .next t ∧ Faults s t 6 (nodeWord stSAF 0 true) (stamp s)) ∧
      (∀ st unit, ∃ t, exec (.watchdogTrip (.elsewhere st unit)) s = .next t ∧ Counted s t K.WATCHDOG_TRIPS 1 ∧
        Faults s t 3 (nodeWord st unit false) (stamp s)) ∧
      (∀ g dual, g < 160 → (lgOut s).testBit g = false →
        ∃ t, exec (.watchdogTrip (.laneGroup g dual)) s = .next t ∧ Counted s t K.WATCHDOG_TRIPS 1 ∧ (lgOut t).testBit g = true ∧ Seen t 0x14 ∧
          (stationDead t (groupStation g) = true → Faults s t 5 (nodeWord (groupStation g) g false) (stamp s)) ∧
          (stationDead t (groupStation g) = false → reg t K.SAFE_STATE = reg s K.SAFE_STATE ∧ t.pins = s.pins)) ∧
      (∀ nv ns : Nat,
        (((nv < 480000000 ∨ 920000000 < nv) ∧ 1000 ≤ ns) →
          ∃ t, exec (.supplyExcursion (.vddLogic nv ns)) s = .next t ∧ Faults s t 4 (nodeWord stSAF 0 false) (stamp s)) ∧
        (¬ ((nv < 480000000 ∨ 920000000 < nv) ∧ 1000 ≤ ns) → exec (.supplyExcursion (.vddLogic nv ns)) s = .next s) ∧
        (((nv < 680000000 ∨ 870000000 < nv) ∧ 1000 ≤ ns) →
          ∃ t, exec (.supplyExcursion (.vddMem nv ns)) s = .next t ∧ Faults s t 4 (nodeWord stSAF 0 false) (stamp s)) ∧
        (¬ ((nv < 680000000 ∨ 870000000 < nv) ∧ 1000 ≤ ns) → exec (.supplyExcursion (.vddMem nv ns)) s = .next s)) ∧
      (∀ (r : Nat) (d : Int),
        (junctionLimit < d → ∃ t, exec (.supplyExcursion (.temperature r d)) s = .next t ∧ Faults s t 4 (nodeWord stSAF r false) (stamp s)) ∧
        (d ≤ junctionLimit → exec (.supplyExcursion (.temperature r d)) s = .next s)) ∧
      (∀ (mv : List Nat) (temps : List Int), ∃ t, exec (.regionSample mv temps) s = .next t ∧
        (∀ r, r < 16 → reg t (K.REGION_MV r) = (mv[r]?).getD 0 ∧ reg t (K.REGION_TEMP r) = (((temps[r]?).getD 0) % 65536).toNat) ∧
        (adjacentPairs.any (pairSkewed mv temps) = true → Counted s t K.REGION_SKEW_EVENTS 1) ∧
        (adjacentPairs.any (pairSkewed mv temps) = false → reg t K.REGION_SKEW_EVENTS = reg s K.REGION_SKEW_EVENTS) ∧
        ((∀ r, r < 16 → (temps[r]?).getD 0 ≤ junctionLimit) → reg t K.SAFE_STATE = reg s K.SAFE_STATE ∧ t.pins = s.pins) ∧
        (∀ r, r < 16 → junctionLimit < (temps[r]?).getD 0 → (∀ j, j < r → (temps[j]?).getD 0 ≤ junctionLimit) →
          Faults s t 4 (nodeWord stSAF r false) (stamp s))))

/-- The ports (R37, R72 to R76, R349 to R355, R365, R474, R481, R485). A controller's answer or silence waits for the port's next transaction, and its waits and lateness are counted. A tile that a
stream expects enters its inbox, a wrong check poisons it, and one that none expects is counted and gone. In free mode the host takes the waiting tile that the order of R365 puts first, in paced mode the oldest that is
released. A paced output is released on the cycle of its calendar, moved by what it depends on, or slips and is counted. A retry of the fabric link is counted.
What the commands' operands measure is the model's reading: log entry 73. -/
def Obligations.PortsServed : Prop :=
  ∀ s : State, working s = true →
    (∀ p : Nat, p < 16 → (∀ err held cycles, let refresh := s.pins.refresh.testBit p || s.pins.refreshed.testBit p
        let late := cycles - reg s (K.PACE_MP_CYCLES p)
        ∃ t, exec (.mpResponse p ⟨err, held, cycles⟩) s = .next t ∧
        smapGet t.verdicts p = some ((smapGet s.verdicts p).getD [] ++ [if err then Verdict.error else .done]) ∧
        (∀ k, k ≠ p → smapGet t.verdicts k = smapGet s.verdicts k) ∧
        (refresh = true → Counted s t (K.MP_REFRESH_NS p) (cyclesNs s (p + 1) held) ∧ Counted s t K.PACE_REFRESH_CYCLES late ∧
          RegsOnly { s with verdicts := t.verdicts, pins := t.pins, pace := t.pace } t [K.MP_REFRESH_NS p, K.PACE_REFRESH_CYCLES]) ∧
        (refresh = false → Counted s t (K.MP_BP_NS p) (cyclesNs s (p + 1) held) ∧ Counted s t K.PACE_MP_LATE_CYCLES late ∧
          RegsOnly { s with verdicts := t.verdicts, pins := t.pins, pace := t.pace } t [K.MP_BP_NS p, K.PACE_MP_LATE_CYCLES]) ∧
        t.pins = { s.pins with refreshed := t.pins.refreshed } ∧ t.pins.refreshed.testBit p = false ∧
        t.pace = { s.pace with moved := t.pace.moved } ∧ (late = 0 → smapGet t.pace.moved (p + 1) = none) ∧
        (late ≠ 0 → reg s K.TIMING_MODE = 1 → smapGet t.pace.moved (p + 1) = some late)) ∧
      (∃ t, exec (.mpTimeout p) s = .next t ∧ smapGet t.verdicts p = some ((smapGet s.verdicts p).getD [] ++ [Verdict.timeout]) ∧
        (∀ k, k ≠ p → smapGet t.verdicts k = smapGet s.verdicts k) ∧ t = { s with verdicts := t.verdicts })) ∧
    (∀ (q token ordinal : Nat) (v : Tile) (x : Stream), epOpen s = true →
      (inboundStream s q token ordinal = none →
        ∃ t, exec (.epInTile q token ordinal v) s = .next t ∧ Counted s t K.EP_UNMATCHED_TILES 1 ∧ RegsOnly s t [K.EP_UNMATCHED_TILES]) ∧
      (inboundStream s q token ordinal = some x → NumbersDiffer s → v.info.format < 8 →
        (v.info.format = 7 ∨ v.info.valid ≤ elemCount v.info.format) →
        (crc32c v.data = v.info.crc.toNat →
          ∃ t, exec (.epInTile q token ordinal v) s = .next t ∧ findStream t x.id = some { x with inbox := x.inbox ++ [v], nextIn := x.nextIn + 1 } ∧
            OthersStand s t x.id ∧ t = { s with regs := t.regs, tokens := t.tokens, tracker := t.tracker }) ∧
        (v.info.poison = 0 → crc32c v.data ≠ v.info.crc.toNat →
          ∃ t, exec (.epInTile q token ordinal v) s = .next t ∧
            findStream t x.id = some { x with inbox := x.inbox ++ [poisonAll v], nextIn := x.nextIn + 1 } ∧ OthersStand s t x.id))) ∧
    (epOpen s = true → ∀ o : OutTile, outNext s = some o → o ∈ s.epOut ∧
      (reg s K.TIMING_MODE ≠ 1 → ∀ y ∈ s.epOut, keyBefore (outKey s y) (outKey s o) = false) ∧
      exec (.epOutTile .taken) s = .next { s with epOut := s.epOut.erase o, pace := { s.pace with released := s.pace.released - 1 } } ∧
      ∀ n, ∃ t, exec (.epOutTile (.held n)) s = .next t ∧ Counted s t K.EP_HOST_HOLD_CYCLES n ∧
        RegsOnly { s with pace := t.pace } t [K.EP_HOST_HOLD_CYCLES] ∧ t.pace = { s.pace with moved := t.pace.moved } ∧
        (reg s K.TIMING_MODE = 1 → smapGet t.pace.moved 0 = some ((smapGet s.pace.moved 0).getD 0 + n))) ∧
    (∀ (port : PacePort) (scheduled ready lines : Nat) (after : List PacePort), reg s K.TIMING_MODE = 1 →
        (port = .ep → s.pace.released < s.epOut.length) →
      let k := portNumber port
      let due := scheduled + movedBy s port after
      let leaves := max due (max ready ((smapGet s.pace.next k).getD 0))
      ∃ t, exec (.pacedRelease port scheduled ready ⟨lines, after⟩) s = .next t ∧ t.epOut = s.epOut ∧
        t.pace.released = s.pace.released + b2n (decide (port = .ep)) ∧
        (leaves = due → smapGet t.pace.next k = none ∧ smapGet t.pace.slipped k = none ∧ t = { s with pace := t.pace }) ∧
        (leaves ≠ due → smapGet t.pace.next k = some (leaves + portWidth port lines) ∧ smapGet t.pace.slipped k = some (leaves - due) ∧
          Counted s t K.PACE_SLIPS 1 ∧ Counted s t K.PACE_SLIP_CYCLES (leaves - due))) ∧
    (∀ n, 0 < n → ∃ t, exec (.fpTxRetry n) s = .next t ∧ t.pins = { s.pins with fpRetry := true } ∧ Counted s t K.FP_LINK_RETRIES 1 ∧
      Counted s t K.FP_RETRY_CYCLES n ∧ RegsOnly { s with pins := t.pins, pace := t.pace } t [K.FP_LINK_RETRIES, K.FP_RETRY_CYCLES] ∧
      t.pace = { s.pace with moved := t.pace.moved } ∧ (reg s K.TIMING_MODE = 1 → smapGet t.pace.moved 17 = some ((smapGet s.pace.moved 17).getD 0 + n)))

/-- The pins and the test access port act in every state of the block (R75, R474, R480, R485, R486). An input is as it is driven. IDCODE and BYPASS, SAMPLE, PRELOAD, EXTEST and
HIGHZ set the port's own register and leave the block as it is. An instrument reads a region's sensors; one that writes a yard line or a setting does so while no job is
attached and reads zero otherwise. VREQ moves one code towards its target.
The JEP106 bits of IDCODE and the pace of VREQ are the model's: log entries 7 and 75. -/
def Obligations.PinsAndTestPort : Prop :=
  ∀ s : State,
    (∀ up, exec (.fpLinkUp up) s = .next { s with pins := { s.pins with fpUp := up } } ∧
      exec (.mgxLink .mga up) s = .next { s with pins := { s.pins with mga := up } } ∧
      exec (.mgxLink .mgb up) s = .next { s with pins := { s.pins with mgb := up } }) ∧
    (∀ p high, ∃ t, exec (.mpRefresh p high) s = .next t ∧ t.pins.refresh.testBit p = high ∧ (∀ j, j ≠ p → t.pins.refresh.testBit j = s.pins.refresh.testBit j) ∧
      (high = true → t.pins.refreshed.testBit p = true) ∧ t = { s with pins := { s.pins with refresh := t.pins.refresh, refreshed := t.pins.refreshed } }) ∧
    (∀ op, ∃ t, exec (.tapInstruction op) s = .next t ∧ t.pins.tap = op ∧
      t = { s with pins := { s.pins with tap := op, cells := t.pins.cells, tapOut := t.pins.tapOut } } ∧
      (op = .idcode → t.pins.tapOut = 0x2 * 2 ^ 28 + 0x5632 * 2 ^ 12 + Config.jepCode.toNat * 2 + 1) ∧ (op = .bypass ∨ op = .highz → t.pins.tapOut = 0) ∧
      (op = .sample → t.pins.cells = boundary s ∧ t.pins.tapOut = boundary s) ∧ (∀ c, op = .preload c → t.pins.cells = c) ∧
      (op = .extest → t.pins.cells = s.pins.cells ∧ t.pins.tapOut = s.pins.cells)) ∧
    (alive s = true →
      (∀ r, r < 16 → exec (.ijtagInstrument (.readRegion r)) s =
        .next { s with pins := { s.pins with instrument := natLe 2 (reg s (K.REGION_MV r)) ++ natLe 2 (reg s (K.REGION_TEMP r)) } }) ∧
      (∀ slot l b, anyJob s = true → exec (.ijtagInstrument (.writeLine slot l b)) s = .next { s with pins := { s.pins with instrument := zeros 64 } }) ∧
      (∀ slot l b, anyJob s = false → slot < 524288 → l < 64 → b.length = 64 → reg s K.FLIP_STATE ≠ 1 →
        ∃ t, exec (.ijtagInstrument (.writeLine slot l b)) s = .next t ∧ readBytes t.mem (yardAddr slot l) 64 = b ∧ markOf t.mem (yardAddr slot l) = 0 ∧
          LinesStand s t [yardAddr slot l] ∧ t = { s with mem := t.mem, pins := { s.pins with instrument := b } }) ∧
      (∀ idx sub v, (anyJob s = true ∨ settable s idx sub = false) →
        exec (.ijtagInstrument (.writeSetting idx sub v)) s = .next { s with pins := { s.pins with instrument := zeros 8 } }) ∧
      (∀ idx sub v l, anyJob s = false → settable s idx sub = true → limitOf idx sub = some l → l.least ≤ v → v ≤ l.most →
        ∃ t, exec (.ijtagInstrument (.writeSetting idx sub v)) s = .next t ∧ reg t (idx * 256 + sub) = v ∧ t.pins = { s.pins with instrument := natLe 8 v } ∧
          t.mem = s.mem) ∧
      (reg s K.VREQ_OUT = vreqTarget s → exec .vreqStep s = .next s) ∧
      (reg s K.VREQ_OUT ≠ vreqTarget s → ∃ t, exec .vreqStep s = .next t ∧ Counted s t K.VREQ_STEPS 1 ∧
        reg t K.VREQ_OUT = (if reg s K.VREQ_OUT < vreqTarget s then reg s K.VREQ_OUT + 1 else reg s K.VREQ_OUT - 1) ∧
        RegsOnly s t [K.VREQ_OUT, K.VREQ_STEPS]))

/-- The alignment of the clock domains (R357 to R360, R455). An ALIGN edge before alignment is done adds its period, the first begins one, and TMB's passing starts the timebase at zero; the edge after
every domain has passed completes the sequence, and so does the edge after the time-out, or the time-out itself where no domain has passed, with the domains that have not passed failed; afterwards an edge
at which a domain is off a multiple of its count is drift.
When the time-out takes effect is the model's reading: log entry 63. -/
def Obligations.ClocksAligned : Prop :=
  ∀ (counts : List Nat) (s : State), alive s = true →
    let done := fun (t : State) => reg t K.ALIGN_DONE = 1 ∧
      (∀ d, d < 19 → reg t (K.ALIGN_COUNTS d) = ((((passedCounts s.align.periods)[d]?).getD none).getD 0) ∧
        (reg t K.ALIGN_STATUS).testBit d = (((passedCounts s.align.periods)[d]?).getD none).isSome) ∧
      t.align = { periods := [], counters := domains.map (fun _ => 0), gaveUp := false } ∧ t.mem = s.mem ∧ t.time = s.time ∧
      ((passedCounts s.align.periods).all Option.isSome = false → Seen t 0x0E) ∧
      ∀ k, stateKey k = true → k ≠ K.ALIGN_DONE → k ≠ K.ALIGN_STATUS → k ≠ K.FP_BOOT_NONCE → (∀ d, d < 19 → k ≠ K.ALIGN_COUNTS d) → reg t k = reg s k
    (reg s K.ALIGN_DONE ≠ 1 →
      (((passedCounts s.align.periods).all Option.isSome = true ∨ s.align.gaveUp = true) → ∃ t, exec (.alignEdge counts) s = .next t ∧ done t) ∧
      ((passedCounts s.align.periods).all Option.isSome = false → s.align.gaveUp = false →
        let ps := (if s.align.periods = [] then [] else counts) :: s.align.periods
        ∃ t, exec (.alignEdge counts) s = .next t ∧ t.align = { s.align with periods := ps } ∧ t = { s with align := t.align, time := t.time } ∧
          (s.time.running = true → t.time = s.time) ∧
          (s.time.running = false → (((passedCounts ps)[18]?).getD none).isSome = true → t.time = { s.time with running := true, tb := 0 }) ∧
          (s.time.running = false → (((passedCounts ps)[18]?).getD none).isSome = false → t.time = s.time)) ∧
      (upNs s < 1000000 → exec .alignTimeout s = .next s) ∧
      (1000000 ≤ upNs s → (passedCounts s.align.periods).any Option.isSome = true →
        exec .alignTimeout s = .next { s with align := { s.align with gaveUp := true } }) ∧
      (1000000 ≤ upNs s → (passedCounts s.align.periods).any Option.isSome = false → ∃ t, exec .alignTimeout s = .next t ∧ done t)) ∧
    (reg s K.ALIGN_DONE = 1 → exec .alignTimeout s = .next s ∧
      ∃ t, exec (.alignEdge counts) s = .next t ∧
        t.align = { s.align with counters := domains.map (fun d => countIn s.align.counters d + countIn counts d) } ∧
        t = { s with regs := t.regs, safety := t.safety, align := t.align } ∧
        ((∃ d, d < 19 ∧ (reg s K.ALIGN_STATUS).testBit d = true ∧ (countIn s.align.counters d + countIn counts d) % max 1 (reg s (K.ALIGN_COUNTS d)) ≠ 0) →
          Counted s t K.ALIGN_DRIFTS 1 ∧ Seen t 0x0E) ∧
        ((∀ d, d < 19 → (reg s K.ALIGN_STATUS).testBit d = true → (countIn s.align.counters d + countIn counts d) % max 1 (reg s (K.ALIGN_COUNTS d)) = 0) →
          t.regs = s.regs))

/-- The ordinary clock and TPPS (R457 to R461), while the firmware runs. A message of another domain or of a master that is not selected is counted and discarded. A two-step Sync
waits for its Follow_Up; a Sync, or the Follow_Up of the one that waits, measures the offset: in ACQUIRING it counts towards LOCKED where it is small, and in mode 1 the first large one
steps the timebase by it. The first Announce selects its sender and enters ACQUIRING; the time-out of the last candidate enters HOLDOVER from a clock that was
locked and LISTENING from another. Delay_Req stamps its departure and Delay_Resp gives the mean path delay. A TPPS edge sets the timebase to a whole second, and the third miss
in a row enters HOLDOVER.
Which master is followed and what the servo sets are the model's: log entries 78 and 80. -/
def Obligations.TimeKept : Prop :=
  ∀ (m : PtpMsg) (s : State), alive s = true →
    (ptpOn s = true →
      let t2 := s.time.tb - rxLatency s m.port
      let o : Int := (t2 : Int) - m.time - s.time.delay
      let mine := decide (m.domain = reg s K.PTP_DOMAIN) && isSelected s m
      let discarded := fun (c : Instr) => ∃ t, exec c s = .next t ∧ Counted s t K.PTP_DISCARDED 1 ∧ RegsOnly s t [K.PTP_DISCARDED]
      let measured := fun (c : Instr) (t2 : Nat) (o : Int) => ∃ t, exec c s = .next t ∧ Counted s t K.PTP_SYNC_RX 1 ∧
        reg t K.PTP_OFFSET_NS = (toFp32 .rne (ofSigned o (-16) false)).toNat ∧
        (reg s K.MSN_PTP_MODE = 2 → reg s K.PTP_STATE = 2 → offsetSmall o = true → s.time.lock < 15 →
          t.time = { s.time with t1t2 := some (m.time, t2), syncAt := none, lock := s.time.lock + 1 } ∧
          RegsOnly { s with time := t.time } t [K.PTP_SYNC_RX, K.PTP_OFFSET_NS]) ∧
        (reg s K.MSN_PTP_MODE = 2 → reg s K.PTP_STATE = 2 → offsetSmall o = true → s.time.lock = 15 →
          reg t K.PTP_STATE = 3 ∧ t.time.wasLocked = true ∧ t.time.frozen = reg s K.TB_INCREMENT) ∧
        (reg s K.MSN_PTP_MODE = 1 → reg s K.PTP_STATE = 2 → s.time.stepped = false → reg s K.PTP_STEP_NS * 65536 < o.natAbs →
          (t.time.tb : Int) = ((s.time.tb : Int) - o) % (tbWrap : Int) ∧ t.time.stepped = true ∧ Counted s t K.TB_STEPS 1 ∧ reg t K.PTP_STATE = 2)
      (mine = false → (∀ twoStep, discarded (.sync m twoStep)) ∧ discarded (.followUp m) ∧ discarded (.delayResp m)) ∧
      (mine = true →
        exec (.sync m true) s = .next { s with time := { s.time with syncAt := some (m.seq, t2) } } ∧
        measured (.sync m false) t2 o ∧
        (∀ at_, s.time.syncAt = some (m.seq, at_) → measured (.followUp m) at_ ((at_ : Int) - m.time - s.time.delay)) ∧
        (s.time.syncAt = none → discarded (.followUp m)) ∧
        (∀ t3 t1 u2, s.time.reqAt = some (m.seq, t3) → s.time.t1t2 = some (t1, u2) →
          ∃ t, exec (.delayResp m) s = .next t ∧ t.time.delay = (((u2 : Int) - t1) + ((m.time : Int) - t3)) / 2 ∧
            t = { s with time := { s.time with delay := t.time.delay, reqAt := none, exchanges := t.time.exchanges } })) ∧
      (∀ a : Announce, (a.msg.domain ≠ reg s K.PTP_DOMAIN → discarded (.announce a)) ∧
        (a.msg.domain = reg s K.PTP_DOMAIN → s.time.best = [] → reg s K.PTP_STATE = 1 →
          ∃ t, exec (.announce a) s = .next t ∧ t.time.best = [a] ∧ reg t K.PTP_STATE = 2 ∧ reg t K.PTP_PORT = portNo a.msg.port ∧
            str t K.PTP_MASTER = natBe 8 a.msg.source ∧ t.time.tb = s.time.tb ∧ RegsOnly { s with time := t.time, strs := t.strs } t [K.PTP_STATE, K.PTP_PORT]) ∧
        (s.time.best = [a] →
          ∃ t, exec .announceTimeout s = .next t ∧ Counted s t K.PTP_ANNOUNCE_TIMEOUTS 1 ∧ t.time.best = [] ∧ reg t K.PTP_PORT = 0 ∧ t.time.tb = s.time.tb ∧
            reg t K.PTP_STATE = (if s.time.wasLocked then 4 else 1) ∧
            reg t K.TB_INCREMENT = if s.time.wasLocked then s.time.frozen else nominalIncrement s)) ∧
      (∀ p, reg s K.PTP_PORT = portNo p → linkUp s p = true → (reg s K.PTP_STATE = 2 ∨ reg s K.PTP_STATE = 3) →
        exec .delayReq s = .next { s with time := { s.time with
          sent := s.time.sent ++ [{ port := p, seq := s.time.delaySeq, depart := s.time.tb + txLatency s p }],
          reqAt := some (s.time.delaySeq, s.time.tb + txLatency s p), delaySeq := (s.time.delaySeq + 1) % 65536 } })) ∧
    (ptpOn s = false → ∀ (a : Announce) (twoStep : Bool),
      ∀ c ∈ [Instr.sync m twoStep, .followUp m, .announce a, .delayResp m, .delayReq, .announceTimeout], exec c s = .next s) ∧
    (∀ cycles : Nat, reg s K.TB_SOURCE = 2 → s.time.running = true →
      let sec := s.time.tb / tbSecond
      let next := match s.time.newSeconds with
        | some v => v
        | none => if s.time.tb / 65536 % 1000000000 < 500000000 then sec else sec + 1
      ∃ t, exec (.tppsEdge cycles) s = .next t ∧ t.time.tb = next * tbSecond % tbWrap ∧ t.time.newSeconds = none ∧ t.time.misses = 0 ∧ reg t K.PTP_STATE = 5 ∧
        (reg s K.MSN_PTP_MODE = 0 → reg t K.TB_INCREMENT = reg s K.TB_INCREMENT) ∧ t.mem = s.mem) ∧
    (reg s K.TB_SOURCE = 2 → s.time.lastTpps ≠ none →
      ∃ t, exec .tppsMissed s = .next t ∧ Counted s t K.TPPS_MISSED 1 ∧ t.time.misses = s.time.misses + 1 ∧ t.time.tb = s.time.tb ∧
        reg t K.PTP_STATE = (if 2 ≤ s.time.misses ∧ reg s K.PTP_STATE = 5 then 4 else reg s K.PTP_STATE)) ∧
    (reg s K.TB_SOURCE ≠ 2 → (∀ cycles, exec (.tppsEdge cycles) s = .next s) ∧ exec .tppsMissed s = .next s)

/-- The life of a job (R492 to R498). A JOB_START record that is formed, in an idle partition with its barrier group on, is kept and the job starts: with peers still to answer it waits at discovery with memory as
it was; alone, it writes the first ledger. A record that rejoins needs the wythe map and the home map on. JOB_CONTROL 1 makes a rejoined job ready, arrives at the first
barrier where the start has come so far, and is kept until then; that barrier's release attaches the job in phase 1 at its step. JOB_CONTROL 3 with every queue off ends the
job: phase 0, and no stack or layer of the partition is left. Each write out of place has its abort code and changes nothing.
How a rejoining block's start goes on is the model's reading: log entry 90. -/
def Obligations.JobLife : Prop :=
  ∀ (q : Nat) (path : Path) (s : State), q < 16 →
    (∀ b : List Byte, Writable s path (0x3020 + q) 1 b.length → ∀ c ∈ [Instr.jobStart path q b, .jobRejoin path q b],
      let idle := decide (reg s K.START_STAGE = 5 ∧ reg s K.SAFE_STATE = 1 ∧ reg s (K.JOB_STATE q) = 0 ∧ reg s (K.BG_STATE q) = 1 ∧
        (jobRejoins b = true → reg s (K.WYTHE_STATE q) = 1 ∧ reg s (K.HM_STATE q) = 1))
      (jobFormed b = false → exec c s = .next { s with sdo := 0x06090030 }) ∧
      (jobFormed b = true → idle = false → exec c s = .next { s with sdo := 0x08000022 }) ∧
      (∀ n ∈ heartbeatSet s q, (peerOf s n).silent = false → jobFormed b = true → idle = true → reg s (K.JOB_FINGERPRINT q) ≠ reg s (K.FP_FINGERPRINT q) →
          reg s K.LIFE_STATE ≠ 0 →
        ∃ t, exec c s = .next t ∧ t.sdo = 0 ∧ reg t (K.JOB_STATE q) = 1 ∧ reg t (K.JOB_FAILED q) = 0 ∧ str t (K.JOB_START q) = b ∧ jobStage t q = 1 ∧
          t.mem = s.mem ∧ t.homes = s.homes ∧ reg t (K.FP_WARM q) = 0 ∧
          ∀ k, stateKey k = true → k ∉ [K.JOB_STATE q, K.JOB_FAILED q, K.FP_WARM q] → reg t k = reg s k) ∧
      (∀ k, jobFormed b = true → idle = true → jobRejoins b = false → heartbeatSet s q = [] → treeNodes s q = [] → 3 ≤ reg s K.FP_LEVEL_MAX →
          reg s (K.JOB_FINGERPRINT q) ≠ reg s (K.FP_FINGERPRINT q) → ledgerHomed s q = true → slotOf s q (ledgerName s q 0) = some k → k < 522240 →
          reg s K.FLIP_STATE ≠ 1 → q ∉ s.members.readyHeld →
        ∃ t, exec c s = .next t ∧ t.sdo = 0 ∧ reg t (K.JOB_STATE q) = 1 ∧ jobStage t q = 3 ∧ reg t (K.MAP_EPOCH q) = leAt b 8 6 ∧
          reg t (K.LEDGER_SLOT q) = 0 ∧ reg t (K.FP_LEVEL q) = reg s K.FP_LEVEL_MAX ∧ LinesStand s t (yardLines k) ∧
          YardTile t k (mkTile (ledgerBytes {
            step := leAt b 0 6, layout := 1, seed := reg s (K.JOB_SEED q), id := if hasWythe s q then reg s (K.WYTHE_ID q) else 0,
            ranks := if hasWythe s q then wyN s q else 1, opt := leAt b 16 8, sched := leAt b 24 8, map := leAt b 8 6, pos := List.replicate 32 0,
            crcOk := true } ++ zeros 3584) 0 4096 0))) ∧
    (Writable s path (0x3020 + q) 2 1 →
      (reg s (K.JOB_STATE q) = 4 →
        ∃ t, exec (.jobControlReady path q) s = .next t ∧ reg t (K.JOB_STATE q) = 2 ∧ jobStage t q = 0 ∧
          RegsOnly { s with sdo := 0, members := t.members } t [K.JOB_STATE q]) ∧
      (reg s (K.JOB_STATE q) = 1 → jobStage s q ≠ 3 →
        ∃ t, exec (.jobControlReady path q) s = .next t ∧ q ∈ t.members.readyHeld ∧
          t = { s with sdo := 0, members := { s.members with readyHeld := t.members.readyHeld } }) ∧
      (reg s (K.JOB_STATE q) = 1 → jobStage s q = 3 → arrivalAt s q 0 (jobStep s q) (reg s (K.BG_POSITION q)) = none →
        ∃ t, exec (.jobControlReady path q) s = .next t ∧ t.sdo = 0 ∧ (q, 0, jobStep s q) ∈ t.mixer.arrived ∧ t.mem = s.mem ∧ t.homes = s.homes ∧
          (arrivalAt t q 0 (jobStep s q) (reg s (K.BG_POSITION q))).isSome = true ∧ ∀ k, stateKey k = true → reg t k = reg s k) ∧
      ((reg s (K.JOB_STATE q) ≠ 4 ∧ reg s (K.JOB_STATE q) ≠ 1) → exec (.jobControlReady path q) s = .next { s with sdo := 0x08000022 }) ∧
      let off := (List.range 4).all (fun i => decide (reg s (K.Q_STATE (4 * q + i)) = 0))
      ((reg s (K.JOB_STATE q) = 0 ∨ off = false) → exec (.jobControlEnd path q) s = .next { s with sdo := 0x08000022 }) ∧
      (reg s (K.JOB_STATE q) ≠ 0 → off = true → (∀ z ∈ s.tracker.streams, z.d.part = q → z.hold ≠ 2) →
        ∃ t, exec (.jobControlEnd path q) s = .next t ∧ t.sdo = 0 ∧ reg t (K.JOB_STATE q) = 0 ∧ reg t (K.STEP_PHASE q) = 0 ∧ reg t (K.SNP_STATE q) = 0 ∧
          t.hod = s.hod.filter (fun h => decide (h.part ≠ q)) ∧ t.layers = s.layers.filter (fun l => decide (l.part ≠ q)) ∧ jobStage t q = 0 ∧
          t.mem = s.mem ∧ t.homes = s.homes ∧
          ∀ k, stateKey k = true → k ∉ [K.JOB_STATE q, K.STEP_PHASE q, K.SNP_STATE q, K.EPOCH_LIST_USED q, K.BCAST_STATUS q] → reg t k = reg s k)) ∧
    (working s = true → reg s (K.JOB_STATE q) = 1 → ∀ c, s.barriers.down.find? (fun d => decide (d.1 = q ∧ d.2.1 = 0)) = some (q, 0, jobStep s q, c) →
      ∃ t, exec (.barrierCountdownExpiry q 0) s = .next t ∧ reg t (K.JOB_STATE q) = 2 ∧ reg t (K.EPOCH q) = jobStep s q ∧ reg t (K.STEP_PHASE q) = 1 ∧
        (∀ d ∈ t.barriers.down, ¬ (d.1 = q ∧ d.2.1 = 0)) ∧
        RegsOnly { s with barriers := t.barriers, members := t.members } t [K.JOB_STATE q, K.EPOCH q, K.STEP_PHASE q])

/-- Membership (R287 to R295). A command that a check refuses leaves MEMBER_STATUS 3 and the check's number, answers the check's abort code and changes nothing else but check 9's event. A command of outcome 0 or
3 that is accepted by a block that is not a spare installs its map and stands at the beginning of its step, with every mixer descriptor of the partition
that was not finished ended with status 0x26. WY_FENCE halts each partition whose wythe or group and lower map epoch it names, and no other. -/
def Obligations.MembershipTaken : Prop :=
  (∀ (q : Nat) (path : Path) (record : List Byte) (s : State), q < 16 → Writable s path (0x3040 + q) 1 record.length →
    let c := cmdOf record
    (∀ check code, cmdRefused s q c = some (check, code) →
      ∃ t, exec (.memberCmd path q record) s = .next t ∧ t.sdo = code ∧ reg t (K.MEMBER_STATUS q) = 3 ∧ reg t (K.MEMBER_REFUSED q) = check ∧
        t = { s with sdo := code, regs := t.regs, safety := t.safety } ∧
        (check ≠ 9 → t.safety = s.safety) ∧ ∀ k, stateKey k = true → k ≠ K.MEMBER_STATUS q → k ≠ K.MEMBER_REFUSED q → reg t k = reg s k) ∧
    (working s = true → cmdRefused s q c = none → c.own ≠ 2 → (c.outcome = 0 ∨ c.outcome = 3) → NumbersDiffer s →
      ∃ t, exec (.memberCmd path q record) s = .next t ∧ t.sdo = 0 ∧ reg t (K.MEMBER_STATUS q) = 2 ∧ reg t (K.MEMBER_REFUSED q) = 0 ∧
        reg t (K.MAP_EPOCH q) = c.epoch ∧ reg t (K.WYTHE_K q) = c.k ∧ reg t (K.WYTHE_M q) = c.m ∧ reg t (K.WYTHE_ID q) = c.id ∧
        reg t (K.WYTHE_RANK q) = c.newRank ∧ reg t (K.MEMBER_TABLE q) = c.table ∧ reg t (K.SILENT_MASK q) = 0 ∧ reg t (K.EPOCH q) = c.step ∧
        reg t (K.STEP_PHASE q) = 1 ∧ reg t (K.RB_STATE q) = 0 ∧ (∀ r, r < 32 → rankState t q r = c.state r) ∧ Seen t 0x09 ∧ t.homes.entries = s.homes.entries ∧
        ∀ x ∈ s.tracker.streams, x.d.part = q → 0x70 ≤ x.d.opcode → x.d.opcode ≤ 0x75 → x.taken = true → x.finish = none →
          ∃ y, findStream t x.id = some y ∧ y.finish.isSome = true ∧ y.status = 0x26)) ∧
  (∀ (p : Packet) (s : State), Arrives s p 0x16 →
    ∃ t, exec (.wyFence p) s = .next t ∧ Counted s t K.MEMBER_FENCED_PKTS 1 ∧ t.homes.entries = s.homes.entries ∧
      ∀ q, q < 16 → q ∉ s.members.fenced →
        (fenceHits s p q = true → reg t (K.STEP_PHASE q) = 6 ∧ q ∈ t.members.fenced ∧ Seen t 0x08) ∧
        (fenceHits s p q = false → reg t (K.STEP_PHASE q) = reg s (K.STEP_PHASE q) ∧ q ∉ t.members.fenced))

/-- Requests at the aperture (R325 to R328, R330) and their answers (R331, R332). A request that the aperture refuses is answered with the status and counted. A LOAD answers the lines it asks
for of the tile's home. A whole STORE in order writes its tile and is answered; a FLAGGED_STORE also writes its flag, in another tile; an
ATOMIC changes its word and answers the old one. A response ends its request: the run-time's atomic has its answer, a stream its tile or one
store less unanswered; one for no request is discarded. A request that times out is counted, silences its peer, and answers the run-time all ones with
0xFF. A flagged store whose earlier store is missing is answered 0x05. -/
def Obligations.RequestsServed : Prop :=
  (∀ (p : Packet) (s : State),
    let q := p.partition
    let name := apertureName s q p.address
    let flag := apertureName s q (p.w4.toNat % 2 ^ 48)
    let flagFormed := decide (p.w4.toNat % 8 = 0)
    let o := p.address % 4096
    let n := atomicSize p
    (∀ st, apertureRefuses s q p.address (linesFormed p) = some st → ∀ c ∈ [(Instr.load p, 0x01), (.store p, 0x02), (.flaggedStore p, 0x03)],
        Arrives s p c.2 →
      ∃ t, exec c.1 s = .next t ∧ OnlySent s t ∧ Counted s t K.FP_APERTURE_MISS 1 ∧
        t.fabric = { s.fabric with out := s.fabric.out ++ [answerPacket s p st false 0 0 []] }) ∧
    (∀ v, Arrives s p 0x01 → apertureRefuses s q p.address (linesFormed p) = none → ReadsYard s q name v →
      let l := ((tileLines v).drop (reqFirst p)).take (reqLines p)
      let m := metaBytes v.info
      ∃ t, exec (.load p) s = .next t ∧ OnlyTraffic s t ∧ t.mem = s.mem ∧
        t.fabric = { s.fabric with out := s.fabric.out ++ [answerPacket s p 0 p.whole
          (if p.whole then BitVec.ofNat 64 (leAt m 0 8) else 0) (if p.whole then BitVec.ofNat 64 (leAt m 8 8) else 0) l] }) ∧
    (∀ k, Arrives s p 0x02 → apertureRefuses s q p.address (linesFormed p) = none → p.whole = true → SoundTile (storeWhole p) → WritesYard s q name k →
        InOrder s p → (seqTrack s p.src q).next = p.seq →
      ∃ t, exec (.store p) s = .next t ∧ OnlyTraffic s t ∧ YardTile t k (storeWhole p) ∧ LinesStand s t (yardLines k) ∧ StoreApplied s t p ∧
        t.fabric.out = s.fabric.out ++ [answerPacket s p 0 false 0 0 []]) ∧
    (∀ k v j u, Arrives s p 0x03 → apertureRefuses s q p.address (linesFormed p) = none → lineBad p.payload = [] → ReadsYard s q name v → WritesYard s q name k →
        apertureRefuses s q (p.w4.toNat % 2 ^ 48) flagFormed = none → ReadsYard s q flag u → WritesYard s q flag j → j ≠ k →
        InOrder s p → (seqTrack s p.src q).next = p.seq →
      ∃ t, exec (.flaggedStore p) s = .next t ∧ OnlyTraffic s t ∧ YardTile t k (tilePut v (64 * reqFirst p) (lineData p.payload)) ∧
        YardTile t j (tilePut u (p.w4.toNat % 4096) (natLe 8 p.w5.toNat)) ∧ LinesStand s t (yardLines k ++ yardLines j) ∧ StoreApplied s t p ∧
        t.fabric.out = s.fabric.out ++ [answerPacket s p 0 false 0 0 []]) ∧
    (∀ k v, Arrives s p 0x04 → apertureRefuses s q p.address (decide (p.address % n = 0 ∧ atomicOp p ≤ 5)) = none →
        ¬ ((atomicOp p = 3 ∨ atomicOp p = 4) ∧ p.level = 3) → ReadsYard s q name v → WritesYard s q name k → InOrder s p →
      let old := BitVec.ofNat 64 (leAt v.data o n)
      ∃ t, exec (.atomic p) s = .next t ∧ OnlyTraffic s t ∧
        YardTile t k (tilePut v o (natLe n (atomicValue (atomicOp p) old p.w4 p.w5).toNat)) ∧ LinesStand s t (yardLines k) ∧
        t.fabric = { s.fabric with out := s.fabric.out ++ [answerPacket s p 0 false old 0 []] }) ∧
    (∀ x, working s = true → s.fabric.flagged.find? (fun y => decide (y.src = p.src ∧ y.partition = q ∧ y.seq = p.seq)) = some x → x.type = 0x04 →
        x.combined = true → (x.level = 3 ∨ x.level = 4) → fpOpen s = true →
      ∃ t, exec (.flagTimeout p.src q p.seq) s = .next t ∧ OnlySent s t ∧ Counted s t K.FP_ORDER_TIMEOUTS 1 ∧
        t.fabric = { s.fabric with
          flagged := s.fabric.flagged.eraseP (fun y => decide (y.src = p.src ∧ y.partition = q ∧ y.seq = p.seq)),
          out := s.fabric.out ++ [answerPacket s x 0x05 false 0 0 []] })) ∧
  (∀ (p : Packet) (s : State), Arrives s p 0x08 → p.combined = false → NoAtomicWaits s →
    (s.fabric.reqs.find? (fun r => decide (r.tag = p.tag)) = none →
      ∃ t, exec (.response p) s = .next t ∧ Counted s t K.FP_RX_DISCARDED 1 ∧ OnlySent s t ∧ t.fabric = s.fabric) ∧
    (∀ r, s.fabric.reqs.find? (fun r => decide (r.tag = p.tag)) = some r → r.node = p.src →
      let gone := s.fabric.reqs.filter (fun y => decide (y.tag ≠ p.tag))
      (r.use = .atomic → ∃ t, exec (.response p) s = .next t ∧ t.fabric.reqs = gone ∧ t.fabric.pendingAtomic = false ∧
        t.fabric.atomicAnswer = natLe 8 p.w4.toNat ++ natLe 8 p.status ∧ OnlySent s t) ∧
      (∀ sid name x, r.use = .read sid name → r.type = 0x01 → p.status = 0 → findStream s sid = some x →
        let m := metaOf (natLe 8 p.w4.toNat ++ natLe 8 p.w5.toNat)
        let v : Tile := { data := bytesAt (lineData p.payload) 0 4096, info := { m with poison := m.poison ||| maskOf (lineBad p.payload) } }
        let sound := v.info.poison ≠ 0 ∨ v.info.crc = BitVec.ofNat 32 (crc32c v.data)
        ∃ t, exec (.response p) s = .next t ∧ t.fabric.reqs = gone ∧ OthersStand s t sid ∧ t.mem = s.mem ∧ t.homes = s.homes ∧
          (sound → OnlySent { s with tracker := t.tracker } t) ∧ (¬ sound → Counted s t K.CRC_MISMATCH 1) ∧
          findStream t sid = some { x with fetched := smapPut x.fetched name (if sound then v else poisonAll v),
                                           asked := x.asked.filter (fun y => decide (y ≠ name)) }) ∧
      (∀ sid x, r.use = .write sid → p.status = 0 → findStream s sid = some x → x.closing = false →
        ∃ t, exec (.response p) s = .next t ∧ t.fabric.reqs = gone ∧ OthersStand s t sid ∧ OnlySent { s with tracker := t.tracker } t ∧
          findStream t sid = some { x with unacked := x.unacked - 1 }))) ∧
  (∀ (tag : Nat) (r : Req) (s : State), working s = true → s.members.starting = [] → NoAtomicWaits s →
      s.fabric.reqs.find? (fun r => decide (r.tag = tag)) = some r → r.use = .atomic →
    ∃ t, exec (.requestTimeout tag) s = .next t ∧ t.fabric.reqs = s.fabric.reqs.filter (fun y => decide (y.tag ≠ tag)) ∧
      Counted s t K.FP_TIMEOUTS 1 ∧ t.fabric.pendingAtomic = false ∧ t.fabric.atomicAnswer = List.replicate 8 0xFF ++ natLe 8 0xFF ∧
      (peerOf t r.node).silent = true ∧ ((peerOf s r.node).deadNoted = false → (peerOf t r.node).deadNoted = true) ∧ t.mem = s.mem ∧ t.homes = s.homes)

/-- Peers (R285, R286, R336, R340, R344). Each interval sends every node of the union one HEARTBEAT and counts a miss. A HEARTBEAT ends the misses, and one of a silent peer ends its
silence; a changed nonce is a restart, whose link delay is forgotten and which is silent. SILENCE_MISSES misses silence a peer, in every wythe that has it. A HELLO makes a
peer known and is answered unless it is an answer; an ECHO is answered with its turnaround; the last ECHO_REPLY sets the link's delay, half the least
round trip less its turnaround, rounded up. -/
def Obligations.PeersKnown : Prop :=
  (∀ s : State, working s = true → fpOpen s = true →
    ∃ t, exec .heartbeatTick s = .next t ∧ OnlySent s t ∧
      t.fabric.out = s.fabric.out ++ (heartbeatUnion s).map (fun n => toPeer s 0 n { pkt0 with type := 0x30, w4 := bootWord s }) ∧
      ∀ n, peerOf t n = if n ∈ heartbeatUnion s then { peerOf s n with misses := (peerOf s n).misses + 1 } else peerOf s n) ∧
  (∀ (p : Packet) (s : State), Arrives s p 0x30 →
    let x := peerOf s p.src
    let nonce := p.w4.toNat % 2 ^ 32
    let y := { x with nonce := nonce, misses := 0, level := bits p.w4.toNat 35 32, heard := true }
    (x.nonce = nonce → x.silent = false → ∃ t, exec (.heartbeat p) s = .next t ∧ OnlySent s t ∧ peerOf t p.src = y ∧ t.fabric.out = s.fabric.out) ∧
    (x.nonce = nonce → x.silent = true → x.restarted = false →
      ∃ t, exec (.heartbeat p) s = .next t ∧ peerOf t p.src = { y with silent := false } ∧ t.mem = s.mem ∧ t.fabric.out = s.fabric.out ∧
        ∀ q r, q < 16 → rankAt s q p.src = some r → (reg s (K.SILENT_MASK q)).testBit r = true → (reg t (K.SILENT_MASK q)).testBit r = false ∧ Seen t 0x07) ∧
    (x.nonce ≠ nonce → x.heard = true →
      ∃ t, exec (.heartbeat p) s = .next t ∧ Counted s t K.FP_PEER_RESTARTS 1 ∧ smapGet t.barriers.delays p.src = none ∧
        peerOf t p.src = { y with silent := true, restarted := true, known := false } ∧ t.mem = s.mem ∧ t.homes = s.homes)) ∧
  (∀ (node : Nat) (s : State), working s = true → s.members.starting = [] →
    let x := peerOf s node
    let due := (heartbeatUnion s).contains node && decide (reg s K.SILENCE_MISSES ≤ x.misses) && !x.silent
    (due = false → exec (.peerSilent node) s = .next s) ∧
    (due = true → ∃ t, exec (.peerSilent node) s = .next t ∧ peerOf t node = { x with silent := true } ∧ t.mem = s.mem ∧ t.homes = s.homes ∧
      ∀ q r, q < 16 → rankAt s q node = some r → rankState s q r ≠ 3 → (reg s (K.SILENT_MASK q)).testBit r = false →
        (reg t (K.SILENT_MASK q)).testBit r = true ∧ Seen t 0x06)) ∧
  (∀ (p : Packet) (s : State), Arrives s p 0x31 → s.members.starting = [] →
    ∃ t, exec (.hello p) s = .next t ∧ OnlySent s t ∧
      (p.w5.toNat.testBit 0 = true → t.fabric.out = s.fabric.out ∧
        peerOf t p.src = { peerOf s p.src with nonce := p.w4.toNat % 2 ^ 32, level := bits p.w4.toNat 35 32, known := true, heard := true }) ∧
      (p.w5.toNat.testBit 0 = false → t.fabric.peers = s.fabric.peers ∧
        (∀ part, seqTrack t p.src part = { src := p.src, part := part, next := 0, ahead := [] }) ∧
        t.fabric.out = s.fabric.out ++ [toPeer s p.partition p.src { pkt0 with type := 0x31, w4 := bootWord s, w5 := 1 }])) ∧
  (∀ (p : Packet) (s : State), Arrives s p 0x32 →
    ∃ t, exec (.echo p) s = .next t ∧ OnlySent { s with fresh := s.fresh + 1 } t ∧
      t.fabric = { s.fabric with out := s.fabric.out ++ [toPeer s p.partition p.src { pkt0 with
        type := 0x33, w4 := BitVec.ofNat 64 (p.w4.toNat % 65536), w5 := BitVec.ofNat 64 (Config.echoTurnaround s.fresh % 2 ^ 32) }] }) ∧
  (∀ (p : Packet) (sent : Nat) (s : State), Arrives s p 0x33 → s.members.starting = [] →
      s.barriers.echoes.find? (fun e => decide (e.1 = p.src ∧ e.2.1 = p.w4.toNat % 65536)) = some (p.src, p.w4.toNat % 65536, sent) →
    let this := (nowCycles s - sent, p.w5.toNat % 2 ^ 32)
    let best := match smapGet s.barriers.best p.src with | some b => if this.1 < b.1 then this else b | none => this
    let last := s.barriers.echoes.all (fun e => decide (e.1 = p.src → e.2.1 = p.w4.toNat % 65536))
    ∃ t, exec (.echoReply p) s = .next t ∧ RegsOnly { s with barriers := t.barriers } t [K.FP_RX_PACKETS] ∧
      (∀ e, e ∈ t.barriers.echoes ↔ e ∈ s.barriers.echoes ∧ ¬ (e.1 = p.src ∧ e.2.1 = p.w4.toNat % 65536)) ∧
      (last = true → smapGet t.barriers.delays p.src = some ((best.1 - best.2 + 1) / 2)) ∧
      (last = false → t.barriers.delays = s.barriers.delays ∧ smapGet t.barriers.best p.src = some best))

/-- The barrier tree (R339). The arrival of a position below is recorded once. Where it is the last, the root starts its countdown of the subtree's delay and the margin
and sends the releases; another position passes the arrival on to its parent. A release that comes in time starts the countdown of what it carries less
the link's delay; one that comes late is counted and releases at once, and a seal barrier's release puts the partition in phase 4, where it is not past it.
The job-start broadcast below the root (R342, R343). Tile 0 of a new broadcast is written at its destination, and the broadcast runs, or is done where it is of one tile; a tile
already written is counted. A resume notes how far a position is, and sends it the tile that this lets go. The DONE of the only position below is noted, and
completes a broadcast that is written here.
How many tiles a broadcast has is a free value, and how its tiles carry their metadata is the model's choice: log entries 52 and 53. -/
def Obligations.TreeTraffic : Prop :=
  ((∀ (p : Packet) (s : State), TreeArrives s p 0x34 →
    let q := p.partition
    let kind := barrierKind p
    let e := p.w6.toNat % 2 ^ 48
    let own := reg s (K.BG_POSITION q)
    let a : Arrival := { part := q, kind := kind, epoch := e, pos := p.w5.toNat % 65536, delay := p.w5.toNat / 2 ^ 32 }
    a.pos ∈ childrenOf s q → a.pos ≠ own → arrivalAt s q kind e a.pos = none →
    (arrivalAt s q kind e own = none →
      ∃ t, exec (.barrierArrive p) s = .next t ∧
        RegsOnly { s with barriers := { s.barriers with arrivals := s.barriers.arrivals ++ [a] } } t [K.FP_RX_PACKETS]) ∧
    ((arrivalAt s q kind e own).isSome = true → (q, kind, e) ∉ s.barriers.sentUp →
        (∀ c ∈ childrenOf s q, c ≠ a.pos → (arrivalAt s q kind e c).isSome = true) →
      ∃ t, exec (.barrierArrive p) s = .next t ∧ OnlySent { s with barriers := t.barriers } t ∧ arrivalAt t q kind e a.pos = some a ∧
        (q, kind, e) ∈ t.barriers.sentUp ∧
        (own = 0 → let c := subtreeDelay t q kind e + fpCycles s (reg s K.FP_BARRIER_MARGIN_NS)
          (q, kind, e, c) ∈ t.barriers.down ∧ ReleasesSent s t q kind e (c - Config.forwardCycles)) ∧
        (∀ par n, parentOf s q = some par → positionNode s q par = some n →
          t.barriers.down = s.barriers.down ∧
          t.fabric.out = s.fabric.out ++ [toNode s q n { pkt0 with
            type := 0x34, w4 := BitVec.ofNat 64 (kind + b2n (decide (par ≠ (own - 1) / 16)) * 4),
            w5 := BitVec.ofNat 64 (own + subtreeDelay t q kind e * 2 ^ 32), w6 := BitVec.ofNat 64 e }]))) ∧
  (∀ (p : Packet) (s : State), TreeArrives s p 0x35 →
    let q := p.partition
    let kind := barrierKind p
    let e := p.w6.toNat % 2 ^ 48
    let c := p.w5.toNat % 2 ^ 32
    let d := delayTo s p.src
    (q, kind, e) ∈ s.barriers.sentUp → (∀ x ∈ s.barriers.down, ¬ (x.1 = q ∧ x.2.1 = kind ∧ x.2.2.1 = e)) → (q, kind, e) ∉ s.mixer.released →
    (d ≤ c →
      ∃ t, exec (.barrierRelease p) s = .next t ∧ OnlySent { s with barriers := t.barriers } t ∧ ReleasesSent s t q kind e (c - d - Config.forwardCycles) ∧
        t.barriers = { s.barriers with down := s.barriers.down.filter (fun x => decide (¬ (x.1 = q ∧ x.2.1 = kind))) ++ [(q, kind, e, c - d)] }) ∧
    (c < d → kind = 1 → reg s (K.EPOCH q) = e →
      ∃ t, exec (.barrierRelease p) s = .next t ∧ Counted s t K.FP_BARRIER_LATE 1 ∧ reg t (K.STEP_PHASE q) = max (reg s (K.STEP_PHASE q)) 4 ∧ (q, 1, e) ∈ t.mixer.released ∧
        ∀ x ∈ t.barriers.down, ¬ (x.1 = q ∧ x.2.1 = 1)))) ∧
  ((∀ (p : Packet) (s : State), TreeArrives s p 0x36 → p.level = 4 → p.payload.length = 64 →
    let q := p.partition
    let job := p.w4.toNat % 2 ^ 32
    let i := p.w5.toNat % 2 ^ 32
    let dst := p.w6.toNat % 2 ^ 48
    (∀ k, i = 0 → bcastOf s q = none → childrenOf s q = [] → SoundTile (bcastTile p p.payload) → WritesYard s q dst k →
      ∃ t, exec (.bcastData p) s = .next t ∧ YardTile t k (bcastTile p p.payload) ∧ LinesStand s t (yardLines k) ∧
        reg t (K.BCAST_STATUS q) = (if Config.bcastTiles q job = 1 then 2 else 1) ∧
        bcastOf t q = some {
          part := q, job := job, isRoot := false, src := 0, count := some (Config.bcastTiles q job), dst := dst, low := 1, seen := [],
          childLow := [], childNext := [], childDone := [], doneSent := decide (Config.bcastTiles q job = 1), rootLost := false } ∧
        ∀ k, stateKey k = true → k ≠ K.BCAST_STATUS q → reg t k = reg s k) ∧
    (∀ b, bcastOf s q = some b → b.job = job → b.rootLost = false → (i < b.low ∨ i ∈ b.seen) →
      ∃ t, exec (.bcastData p) s = .next t ∧ Counted s t K.FP_BCAST_DUPLICATES 1 ∧ RegsOnly s t [K.FP_RX_PACKETS, K.FP_BCAST_DUPLICATES])) ∧
  (∀ (p : Packet) (b : Bcast) (v : Tile) (s : State), TreeArrives s p 0x37 →
    let q := p.partition
    let pos := p.w6.toNat % 65536
    let low := p.w5.toNat % 2 ^ 32
    let next := max low (min ((smapGet b.childNext pos).getD 0) (low + 4096))
    let b1 := { b with childLow := smapPut b.childLow pos low, childNext := smapPut b.childNext pos next }
    bcastRuns s q = some b → b.job = p.w4.toNat % 2 ^ 32 → childrenOf s q = [pos] → b.isRoot = false → b.count ≠ some b.low →
    (b.low ≤ next →
      ∃ t, exec (.bcastResume p) s = .next t ∧ bcastOf t q = some b1 ∧ RegsOnly { s with bcasts := t.bcasts } t [K.FP_RX_PACKETS]) ∧
    (∀ n, b.low = next + 1 → next < low + 4096 → reg s (K.FP_LEVEL q) = 4 → positionNode s q pos = some n → ReadsYard s q (b.dst + next) v →
      ∃ t, exec (.bcastResume p) s = .next t ∧ bcastOf t q = some { b1 with childNext := smapPut b1.childNext pos (next + 1) } ∧
        OnlyTraffic { s with bcasts := t.bcasts } t ∧ t.mem = s.mem ∧
        t.fabric.out = s.fabric.out ++ [toNode s q n { pkt0 with
          type := 0x36, whole := true, lines := 64, payload := tileLines v,
          w4 := BitVec.ofNat 64 (b.job + leAt (metaBytes v.info) 4 4 * 2 ^ 32), w5 := BitVec.ofNat 64 next, w6 := BitVec.ofNat 64 b.dst }])) ∧
  (∀ (p : Packet) (b : Bcast) (s : State), TreeArrives s p 0x38 →
    let q := p.partition
    let pos := p.w6.toNat % 65536
    let b1 := { b with childDone := pos :: b.childDone }
    bcastRuns s q = some b → b.job = p.w4.toNat % 2 ^ 32 → childrenOf s q = [pos] → b.doneSent = false →
    (b.count ≠ some b.low →
      ∃ t, exec (.bcastDone p) s = .next t ∧ bcastOf t q = some b1 ∧ RegsOnly { s with bcasts := t.bcasts } t [K.FP_RX_PACKETS]) ∧
    (b.count = some b.low →
      ∃ t, exec (.bcastDone p) s = .next t ∧ reg t (K.BCAST_STATUS q) = 2 ∧ bcastOf t q = some { b1 with doneSent := true } ∧
        (∀ par n, parentOf s q = some par → positionNode s q par = some n →
          t.fabric.out = s.fabric.out ++ [toNode s q n { pkt0 with
            type := 0x38, w4 := BitVec.ofNat 64 b.job, w6 := BitVec.ofNat 64 (reg s (K.BG_POSITION q)) }]) ∧
        t.mem = s.mem ∧ ∀ k, stateKey k = true → k ≠ K.BCAST_STATUS q → reg t k = reg s k)))

/-- Packed bricks at a holder (R243, R249, R266, R267, R389). One with a poisoned line is dropped and counted; one for no row of this block is counted and answered with code 2. A
state delta of the header's epoch or a later one, or a gradient brick of the step, is multiplied by its rank's coefficient and added to the row's tiles, and the header has
its rank's bit, in one step; it is counted and acknowledged. One that the header has already is acknowledged as a duplicate, with no line changed. -/
def Obligations.BricksTaken : Prop :=
  ∀ (p : Packet) (s : State), WytheArrives s p 0x10 → wyKind p ≤ 1 → NothingWakes s p.partition →
    let q := p.partition
    let kind := wyKind p
    let cmd := if kind = 1 then Instr.wyBrickGradient p else .wyBrickState p
    let c := courseFor s q kind (wyCourse p)
    let rank := wyRank p
    let e := wyEpoch p
    let b := (lineData p.payload).take (wyLength p)
    let n := ceilDiv (wyLength p) 64
    let limit := if kind = 1 then gradCourses s q else codedCourses s q
    let fits := wyCourse p < limit ∧ isData s q c rank = true
    (n ≤ fragLines p.level → p.payload.length = n → lineBad p.payload ≠ [] →
      ∃ t, exec cmd s = .next t ∧ Counted s t K.MIX_POISON_DROPPED 1 ∧ RegsOnly s t [K.FP_RX_PACKETS, K.MIX_POISON_DROPPED]) ∧
    (OneFragment p n → (limit ≤ wyCourse p ∨ isData s q c rank = false ∨ rowOf s q c (ownRank s q) = none) →
      ∃ t, exec cmd s = .next t ∧ OnlySent s t ∧ Counted s t K.MIX_MISDIRECTED 1 ∧ AckSent s t p 2) ∧
    (∀ (j hk : Nat) (k : Nat → Nat) (v : Nat → Tile) (hv : Tile) (ds : List (List Byte)), OneFragment p n → fits →
        rowOf s q c (ownRank s q) = some j → unpackBrick b = some ds →
        (kind = 0 → encodeAt s q c = none ∧ openRepair s q c (ownRank s q) = none ∧ ∀ d ∈ s.mixer.held, ¬ (d.part = q ∧ d.course = c)) →
        homeOf s q (headerName s q c) = .yard hk → YardTile s hk hv → hk < 522240 →
        let h := headerOf (bytesAt hv.data (headerOff s q c) 64)
        (kind = 0 → headerUsable s q c h = true ∧ ¬ epochRank e < epochRank h.epoch) →
        (kind = 1 → headerAgrees s q c h = true ∧ h.mapEpoch = reg s (K.MAP_EPOCH q) ∧ h.epoch = e) →
        (h.epoch = e → h.applied.testBit rank = true →
          ∃ t, exec cmd s = .next t ∧ OnlyTraffic { s with mixer := t.mixer } t ∧ t.mem = s.mem ∧ Counted s t K.ACK_DUPLICATE 1 ∧ AckSent s t p 1) ∧
        (¬ (h.epoch = e ∧ h.applied.testBit rank = true) → reg s K.MIX_MODE ≠ 2 → reg s K.FLIP_STATE ≠ 1 → s.safety.lanes = [] → brickMoving s q c = false →
            (∀ i, i < 16 → homeOf s q (brickName s q c + i) = .yard (k i) ∧ YardTile s (k i) (v i) ∧ k i < 522240 ∧ k i ≠ hk) →
            (∀ i l, i < 16 → l < 16 → k i = k l → i = l) →
          let bit := (if h.epoch = e then h.applied else 0) ||| 2 ^ rank
          let new := if kind = 0 then { h with epoch := e, applied := bit } else { h with applied := bit, stale := decide (bit ≠ dataMask s q c) }
          let after := fun i => bytesXor (v i).data (gfScale (genCoef (if kind = 0 then h.row else j) (dataIndex s q c rank)) ((ds[i]?).getD []))
          ∃ t, exec cmd s = .next t ∧ OnlyTraffic { s with mixer := t.mixer } t ∧
            (∀ i, i < 16 → YardTile t (k i) { data := after i, info := { (v i).info with crc := BitVec.ofNat 32 (crc32c (after i)) } }) ∧
            YardTile t hk (tilePut hv (headerOff s q c) (headerBytes new)) ∧
            LinesStand s t (yardLines hk ++ (List.range 16).flatMap (fun i => yardLines (k i))) ∧
            Counted s t K.MIX_DELTAS_APPLIED 1 ∧ Counted s t K.MIX_PACKED_BYTES b.length ∧ AckSent s t p 0))

/-- The wythe's other packets of a step (R266, R268, R273, R304, R307). An acknowledgement of the last holder that owes one frees a gradient brick; a refusal of it is counted, seen and kept for the
descriptor. A request for a gradient brick that is sealed and no longer kept sends it again. A request for a brick to encode is answered with the brick, at the epoch before the
request's, or with a retry where the epoch is past; the retry takes its rank off the encode. A ledger record of the step is kept, one a rank; a spare's ready flag is kept and
acknowledged, as kind 0 and course 0: the model's choice, log entry 43. -/
def Obligations.WythePackets : Prop :=
  ∀ (p : Packet) (s : State),
    let q := p.partition
    let c := courseFor s q (wyKind p) (wyCourse p)
    let g := courseFor s q 1 (wyCourse p)
    let rank := wyRank p
    let e := wyEpoch p
    (∀ k, WytheArrives s p 0x11 → NothingWakes s q → wyKind p = 1 → findKept s q 1 c e = some k → (∀ y ∈ s.mixer.kept, sameKept y k = true → y = k) →
      (wyCode p ≤ 1 → k.owed = [rank] →
        ∃ t, exec (.wyAck p) s = .next t ∧ (∀ y, y ∈ t.mixer.kept ↔ y ∈ s.mixer.kept ∧ y ≠ k) ∧
          RegsOnly { s with mixer := { s.mixer with kept := t.mixer.kept } } t [K.FP_RX_PACKETS]) ∧
      (wyCode p = 2 →
        ∃ t, exec (.wyAck p) s = .next t ∧ findKept t q 1 c e = some { k with refused := true } ∧
          t.mixer.refusal = s.mixer.refusal ++ [(q, rank, 2)] ∧ Counted s t K.ACK_REFUSED 1 ∧ Seen t 0x05 ∧ t.mem = s.mem)) ∧
    (∀ v : Nat → Tile, WytheArrives s p 0x12 → e = reg s (K.EPOCH q) → wyCourse p < gradCourses s q → isData s q g (ownRank s q) = true →
        (rowOf s q g rank).isSome = true → sealPending s q g = false → findKept s q 1 g e = none →
        (∀ i, i < 16 → HomedYard s q (brickName s q g + i) (v i)) →
      ∃ t, exec (.wyResendReq p) s = .next t ∧ t.mem = s.mem ∧ OnlyTraffic { s with mixer := { s.mixer with kept := t.mixer.kept } } t ∧
        t.mixer.kept = s.mixer.kept ++ [{
          part := q, sid := 0, kind := 1, course := g, epoch := e, unit := 0, rows := [rank], sent := 1, owed := [rank], refused := false, len := 0, lines := [], who := arrivalWho s q }] ∧
        t.fabric.out = (sendBrick s q 1 g e (packBrick ((List.range 16).map (fun i => (v i).data))) rank (arrivalWho s q)).fabric.out) ∧
    (WytheArrives s p 0x13 →
      ((codedCourses s q ≤ wyCourse p ∨ isData s q (wyCourse p) (ownRank s q) = false) →
        ∃ t, exec (.wyEncodeReq p) s = .next t ∧ OnlySent s t ∧ Counted s t K.MIX_MISDIRECTED 1) ∧
      (wyCourse p < codedCourses s q → isData s q (wyCourse p) (ownRank s q) = true →
        (∀ m, e < reg s (K.EPOCH q) → RankReached s q rank m →
          ∃ t, exec (.wyEncodeReq p) s = .next t ∧ OnlySent s t ∧
            t.fabric.out = s.fabric.out ++ [toRank s q m { pkt0 with
              type := 0x14, w4 := wyWord s q (ownRank s q) 0 0, w5 := BitVec.ofNat 64 (wyCourse p), w6 := BitVec.ofNat 64 e }]) ∧
        (∀ v : Nat → Tile, reg s (K.EPOCH q) ≤ e → unbuilt s q (wyCourse p) = false →
            (∀ i, i < 16 → HomedYard s q (brickName s q (wyCourse p) + i) (v i)) →
          ∃ t, exec (.wyEncodeReq p) s = .next t ∧ t.mem = s.mem ∧ OnlyTraffic s t ∧
            t.fabric.out = (sendBrick s q 0 (wyCourse p) ((e + 2 ^ 48 - 1) % 2 ^ 48) (packBrick ((List.range 16).map (fun i => (v i).data))) rank
              (arrivalWho s q)).fabric.out))) ∧
    (∀ x, WytheArrives s p 0x14 → encodeAt s q (wyCourse p) = some x → x.epoch = e → x.stopped = false →
      ∃ t, exec (.wyEncodeRetry p) s = .next t ∧ encodeAt t q (wyCourse p) = some { x with owed := x.owed.filter (fun r => decide (r ≠ rank)) } ∧
        RegsOnly { s with mixer := { s.mixer with encodes := t.mixer.encodes }, safety := { s.safety with verify := t.safety.verify } } t [K.FP_RX_PACKETS]) ∧
    (WytheArrives s p 0x15 → NothingWakes s q → lineBad p.payload = [] →
      (reg s (K.EPOCH q) ≤ e →
        ∃ t, exec (.wyLedger p) s = .next t ∧ RegsOnly { s with mixer := { s.mixer with ledgers := t.mixer.ledgers } } t [K.FP_RX_PACKETS] ∧
          recordFrom t q rank e = some {
            part := q, rank := rank, epoch := e, opt := leAt (lineData p.payload) 0 8, sched := leAt (lineData p.payload) 8 8, pos := leAt (lineData p.payload) 16 8 } ∧
          ∀ a r f, ¬ (a = q ∧ r = rank) → recordFrom t a r f = recordFrom s a r f) ∧
      (e < reg s (K.EPOCH q) → ∃ t, exec (.wyLedger p) s = .next t ∧ RegsOnly s t [K.FP_RX_PACKETS])) ∧
    (WytheArrives s p 0x19 → rankState s q rank = 2 → wyKind p = 0 → wyCourse p = 0 →
      ∃ t, exec (.wyReady p) s = .next t ∧ (q, rank, e) ∈ t.members.ready ∧ (∀ x ∈ s.members.ready, x ∈ t.members.ready) ∧ AckSent s t p 0 ∧
        OnlySent { s with members := { s.members with ready := t.members.ready } } t)

/-- The repair tree (R297 to R300). A sum that comes before its request is kept for it. The root sum of this block's own decode of a LOST rank's brick, its versions in
agreement, completes the decode. A request to a leaf of the tree, whose brick is whole, is answered with the lines asked for times the coefficient, and the line of its
versions; the payload is counted.
How requests and sums lie in their packets, and the line of versions, are the model's choice: log entries 44 and 45. -/
def Obligations.RepairTree : Prop :=
  ∀ (p : Packet) (s : State),
    let q := p.partition
    let c := wyCourse p
    let lost := bits p.w4.toNat 41 37
    let pos := bits p.w5.toNat 50 44
    let mask := p.w6.toNat
    NothingWakes s q → s.contribs = [] → s.fabric.stalled = [] → s.mixer.held = [] →
    (WytheArrives s p 0x17 → OneFragment p (maskLines mask + 1) →
      (0 < pos → ∃ t, exec (.wyRepair p) s = .next t ∧
        t.contribs = [{
          part := q, course := c, lost := lost, mask := mask, pos := pos - lowBit pos, parent := 0, owed := [pos], sum := lineData p.payload, bad := [],
          coef := 0, asked := false, own := false }] ∧
        RegsOnly { s with contribs := t.contribs } t [K.FP_RX_PACKETS, K.RDX_GF_BYTES]) ∧
      (∀ r plan, pos = 0 → lost ≠ ownRank s q → rowOf s q c lost = none → openRepair s q c lost = some r → r.mask = mask → s.repairs = [r] → r.again = false →
          planFor s q c lost r.rows r.trust r.extra = .made plan → versionsOf s r plan (lineData p.payload) = .agree →
        ∃ t, exec (.wyRepair p) s = .next t ∧ t.repairs = [{ r with isDone := true, sum := lineData p.payload }] ∧
          RegsOnly { s with repairs := t.repairs } t [K.FP_RX_PACKETS])) ∧
    (∀ (plan : Plan) (v : Nat → Tile), WytheArrives s p 0x18 → c < codedCourses s q →
        planDecode s q c lost ((List.range 3).filter (fun j => p.w5.toNat.testBit (51 + j))) (p.w5.toNat.testBit 54)
          (if bits p.w5.toNat 60 55 = 0 then none else some (bits p.w5.toNat 60 55 - 1)) = .made plan →
        plan.tree[pos]? = some (ownRank s q) → childPositions pos plan.tree.length = [] → isData s q c (ownRank s q) = true → unbuilt s q c = false →
        (∀ i, i < 16 → HomedYard s q (brickName s q c + i) (v i)) → reg s K.RPT_MODE ≠ 2 → s.safety.lanes = [] →
        let parent := if pos = 0 then wyRank p else (plan.tree[pos - lowBit pos]?).getD (wyRank p)
        let lines := mask / 256 * 256 + bits p.w4.toNat 49 42
        parent ≠ ownRank s q →
      ∃ t, exec (.wyRepairReq p) s = .next t ∧ t.mem = s.mem ∧ OnlyTraffic s t ∧ Counted s t K.RPT_REPAIR_BYTES (64 * maskLines lines) ∧
        t.fabric.out = (sendRank s q parent { pkt0 with
            type := 0x17, w4 := repairW4 s q lost, w5 := repairW5 c pos, w6 := BitVec.ofNat 64 lines }
          (asLines (gfScale (mask % 256) (maskedBytes lines ((List.range 16).map (fun i => (v i).data))) ++
            infoLine (if brickNew s q c then 2 ^ ownRank s q else 0) none)) (arrivalWho s q)).fabric.out)

end Statements
end

