-- ==== Sys2Proof/Laws/Sparse.lean ====
section
/-! SUPPORT. The laws of sparse maps: what a read finds after a write, and that writes keep keys rising. -/
namespace Sys2Proof.Machine

variable {α : Type}

@[simp] theorem smapGet_put_self (m : SMap α) (k : Nat) (v : α) : smapGet (smapPut m k v) k = some v := by
  induction m with
  | nil => simp [smapPut, smapGet]
  | cons e t ih =>
    obtain ⟨j, w⟩ := e
    simp only [smapPut]
    split_ifs with h1 h2 <;> simp_all [smapGet]

theorem smapGet_put_other (m : SMap α) {k i : Nat} (v : α) (h : i ≠ k) : smapGet (smapPut m k v) i = smapGet m i := by
  induction m with
  | nil => simp [smapPut, smapGet, h.symm]
  | cons e t ih =>
    obtain ⟨j, w⟩ := e
    simp only [smapPut]
    split_ifs with h1 h2
    · simp [smapGet, h.symm]
    · subst h2; simp [smapGet, h.symm]
    · simp [smapGet, ih]

/-- A read after any put. -/
theorem smapGet_put (m : SMap α) (k i : Nat) (v : α) : smapGet (smapPut m k v) i = if i = k then some v else smapGet m i := by
  split_ifs with h
  · subst h; simp
  · exact smapGet_put_other m v h

/-- A read of a map filtered by key. -/
theorem smapGet_filter (p : Nat → Bool) (m : SMap α) (i : Nat) :
    smapGet (m.filter (fun e => p e.1)) i = if p i then smapGet m i else none := by
  induction m with
  | nil => simp [smapGet]
  | cons e t ih =>
    obtain ⟨j, w⟩ := e
    rw [List.filter_cons]
    by_cases hp : p j <;> by_cases hi : p i <;> by_cases hj : j = i <;> simp_all [smapGet]

@[simp] theorem smapGet_erase_self (m : SMap α) (k : Nat) : smapGet (smapErase m k) k = none := by
  simpa [smapErase] using smapGet_filter (fun j => decide (j ≠ k)) m k

theorem smapGet_erase_other (m : SMap α) {k i : Nat} (h : i ≠ k) : smapGet (smapErase m k) i = smapGet m i := by
  simpa [smapErase, h] using smapGet_filter (fun j => decide (j ≠ k)) m i

theorem smapGet_append (l r : SMap α) (i : Nat) : smapGet (l ++ r) i = (smapGet l i).or (smapGet r i) := by
  induction l with
  | nil => simp [smapGet]
  | cons e t ih =>
    obtain ⟨j, w⟩ := e
    simp only [List.cons_append, smapGet]
    split_ifs <;> simp [ih]

/-- What a map with defaults reads after a write. -/
theorem smapGet_set (dflt : Nat → Nat) (m : SMap Nat) (k i v : Nat) :
    (smapGet (smapSet dflt m k v) i).getD (dflt i) = if i = k then v else (smapGet m i).getD (dflt i) := by
  unfold smapSet
  split_ifs with h1 h2 h2
  · subst h2; simp [h1]
  · rw [smapGet_erase_other m h2]
  · subst h2; simp
  · rw [smapGet_put_other m v h2]

/-- Rising keys are sorted keys. -/
theorem keysRise_iff (m : SMap α) : keysRise m = true ↔ m.Pairwise (fun a b => a.1 < b.1) := by
  induction m with
  | nil => simp [keysRise]
  | cons a t ih =>
    cases t with
    | nil => simp [keysRise]
    | cons b t =>
      simp only [keysRise, Bool.and_eq_true, decide_eq_true_eq, ih, List.pairwise_cons]
      constructor
      · rintro ⟨h, hb, ht⟩
        refine ⟨fun c hc => ?_, hb, ht⟩
        rcases List.mem_cons.1 hc with rfl | hc
        · exact h
        · exact h.trans (hb c hc)
      · rintro ⟨h, hb, ht⟩
        exact ⟨h b (by simp), hb, ht⟩

theorem smapPut_mem {m : SMap α} {k : Nat} {v : α} {e : Nat × α} (h : e ∈ smapPut m k v) : e = (k, v) ∨ e ∈ m := by
  induction m with
  | nil => simpa [smapPut] using h
  | cons a t ih =>
    obtain ⟨j, w⟩ := a
    simp only [smapPut] at h
    split_ifs at h
    · simpa using h
    · rcases List.mem_cons.1 h with h | h <;> simp [h]
    · rcases List.mem_cons.1 h with h | h
      · simp [h]
      · rcases ih h with h | h <;> simp [h]

theorem keysRise_filter (p : Nat × α → Bool) {m : SMap α} (h : keysRise m = true) : keysRise (m.filter p) = true :=
  (keysRise_iff _).2 (((keysRise_iff m).1 h).filter p)

theorem keysRise_put {m : SMap α} (k : Nat) (v : α) (h : keysRise m = true) : keysRise (smapPut m k v) = true := by
  rw [keysRise_iff] at h ⊢
  induction m with
  | nil => simp [smapPut]
  | cons a t ih =>
    obtain ⟨j, w⟩ := a
    obtain ⟨ha, ht⟩ := List.pairwise_cons.1 h
    simp only [smapPut]
    split_ifs with h1 h2
    · refine List.pairwise_cons.2 ⟨fun b hb => ?_, h⟩
      rcases List.mem_cons.1 hb with rfl | hb
      · exact h1
      · exact h1.trans (ha b hb)
    · subst h2; exact List.pairwise_cons.2 ⟨ha, ht⟩
    · refine List.pairwise_cons.2 ⟨fun b hb => ?_, ih ht⟩
      rcases smapPut_mem hb with rfl | hb
      · show j < k; omega
      · exact ha b hb

theorem keysRise_erase {m : SMap α} (k : Nat) (h : keysRise m = true) : keysRise (smapErase m k) = true :=
  keysRise_filter _ h

/-- A write of a map with defaults keeps its canonical form. -/
theorem canonNat_set {dflt : Nat → Nat} {m : SMap Nat} (k v : Nat) (h : canonNat dflt m = true) :
    canonNat dflt (smapSet dflt m k v) = true := by
  simp only [canonNat, Bool.and_eq_true, List.all_eq_true, decide_eq_true_eq] at h ⊢
  unfold smapSet
  split_ifs with hv
  · exact ⟨keysRise_erase k h.1, fun e he => h.2 e (List.mem_of_mem_filter he)⟩
  · refine ⟨keysRise_put k v h.1, fun e he => ?_⟩
    rcases smapPut_mem he with rfl | he
    · exact hv
    · exact h.2 e he

end Sys2Proof.Machine
end

