-- ==== Sys2Proof/Laws/Memory.lean ====
section
/-! SUPPORT. The laws of memory: a read after a write, and that every write keeps the canonical form. -/
namespace Sys2Proof.Machine

theorem cellsOf_bounds {a : Nat} {l : List Byte} {e : Host.Cell} (h : e ∈ cellsOf a l) :
    a ≤ e.1 ∧ e.1 < a + l.length ∧ (stackBase ≤ e.1 ∨ e.2 ≠ 0) := by
  induction l generalizing a with
  | nil => simp [cellsOf] at h
  | cons b t ih =>
    simp only [cellsOf] at h
    split_ifs at h with hz
    · obtain ⟨x, y, z⟩ := ih h; simp only [List.length_cons]; exact ⟨by omega, by omega, z⟩
    · rcases List.mem_cons.1 h with rfl | h
      · refine ⟨le_refl _, by simp, ?_⟩
        by_cases hs : stackBase ≤ a
        · exact .inl hs
        · exact .inr fun hb => hz ⟨by omega, hb⟩
      · obtain ⟨x, y, z⟩ := ih h; simp only [List.length_cons]; exact ⟨by omega, by omega, z⟩

theorem cellsOf_rise (a : Nat) (l : List Byte) : keysRise (cellsOf a l) = true := by
  rw [keysRise_iff]
  induction l generalizing a with
  | nil => simp [cellsOf]
  | cons b t ih =>
    simp only [cellsOf]
    split_ifs
    · exact ih (a + 1)
    · exact List.pairwise_cons.2 ⟨fun e he => by have := cellsOf_bounds he; omega, ih (a + 1)⟩

theorem smapGet_none {α : Type} {m : SMap α} {i : Nat} (h : ∀ e ∈ m, e.1 ≠ i) : smapGet m i = none := by
  induction m with
  | nil => rfl
  | cons e t ih =>
    obtain ⟨j, w⟩ := e
    have hj : j ≠ i := h (j, w) (by simp)
    simp [smapGet, hj, ih fun e he => h e (by simp [he])]

/-- What the cells of a byte string list at one of its addresses. -/
theorem smapGet_cellsOf (a : Nat) (l : List Byte) (i : Nat) (h : i < l.length) :
    smapGet (cellsOf a l) (a + i) = if a + i < stackBase ∧ l[i] = 0 then none else some l[i] := by
  induction l generalizing a i with
  | nil => simp at h
  | cons b t ih =>
    cases i with
    | zero =>
      simp only [cellsOf, Nat.add_zero, List.getElem_cons_zero]
      split_ifs with hz
      · exact smapGet_none fun e he => by have := cellsOf_bounds he; omega
      · simp [smapGet]
    | succ i =>
      have hi : i < t.length := by simpa using h
      have := ih (a + 1) i hi
      rw [show a + 1 + i = a + (i + 1) by omega] at this
      simp only [cellsOf, List.getElem_cons_succ]
      split_ifs with hz hw hw
      · rw [this, if_pos hw]
      · rw [this, if_neg hw]
      · rw [smapGet, if_neg (by omega), this, if_pos hw]
      · rw [smapGet, if_neg (by omega), this, if_neg hw]

/-- A read of a byte that was written gives what was written. -/
theorem readByte_putBytes_in (m : Memory) (a : Nat) (l : List Byte) (i : Nat) (h : i < l.length) :
    readByte (putBytes m a l) (a + i) = l[i] := by
  have h1 : smapGet (m.cells.filter (fun e => decide (e.1 < a))) (a + i) = none :=
    smapGet_none fun e he => by simp at he; omega
  have h3 : smapGet (m.cells.filter (fun e => decide (a + l.length ≤ e.1))) (a + i) = none :=
    smapGet_none fun e he => by simp at he; omega
  simp only [readByte, putBytes, smapGet_append, h1, h3, smapGet_cellsOf a l i h]
  split_ifs with hz
  · simp [unlistedByte, hz.1, hz.2]
  · simp

/-- A write leaves every other byte as it was. -/
theorem readByte_putBytes_out (m : Memory) (a : Nat) (l : List Byte) (i : Nat) (h : i < a ∨ a + l.length ≤ i) :
    readByte (putBytes m a l) i = readByte m i := by
  have h2 : smapGet (cellsOf a l) i = none := smapGet_none fun e he => by have := cellsOf_bounds he; omega
  have h1 := smapGet_filter (fun j => decide (j < a)) m.cells i
  have h3 := smapGet_filter (fun j => decide (a + l.length ≤ j)) m.cells i
  simp only [readByte, putBytes, smapGet_append, h2, h1, h3, unlistedByte]
  rcases h with h | h
  · have : ¬ (a + l.length ≤ i) := by omega
    cases hg : smapGet m.cells i <;> simp [h, this]
  · have : ¬ (i < a) := by omega
    cases hg : smapGet m.cells i <;> simp [h, this]

@[simp] theorem readByte_putMark (m : Memory) (a : Nat) (w : Word32) (i : Nat) : readByte (putMark m a w) i = readByte m i := rfl

/-- A line written reads back, and every other byte reads as before. -/
theorem readByte_putLine_in (m : Memory) (a : Nat) (l : Line) (i : Nat) (h : i < l.bytes.length) :
    readByte (putLine m a l) (a + i) = l.bytes[i] := by
  simp [putLine, readByte_putBytes_in m a l.bytes i h]

theorem readByte_putLine_out (m : Memory) (a : Nat) (l : Line) (i : Nat) (h : i < a ∨ a + l.bytes.length ≤ i) :
    readByte (putLine m a l) i = readByte m i := by
  simp [putLine, readByte_putBytes_out m a l.bytes i h]

/-- The mark of a line written; other lines keep theirs. -/
theorem markOf_putLine (m : Memory) (a b : Nat) (l : Line) (hb : b / 64 = a / 64 → (b < stackBase ↔ a < stackBase)) :
    markOf (putLine m a l) b = if b / 64 = a / 64 then l.mark else markOf m b := by
  simp only [markOf, putLine, putMark, putBytes]
  by_cases hab : b / 64 = a / 64
  · have h := hb hab
    rw [if_pos hab, hab]
    by_cases hz : a < stackBase ∧ l.mark = 0
    · simp [hz, h.2 hz.1]
    · rw [if_neg hz]; simp
  · rw [if_neg hab]
    by_cases hz : a < stackBase ∧ l.mark = 0
    · rw [if_pos hz, smapGet_erase_other _ hab]
    · rw [if_neg hz, smapGet_put_other _ _ hab]

/-- The canonical form, spelt out. -/
theorem Memory.wf_iff (m : Memory) : m.wf = true ↔ keysRise m.cells = true ∧ keysRise m.marks = true ∧
    (∀ e ∈ m.cells, stackBase ≤ e.1 ∨ e.2 ≠ 0) ∧ (∀ e ∈ m.marks, stackBase ≤ e.1 * 64 ∨ e.2 ≠ 0) := by
  simp only [Memory.wf, Bool.and_eq_true, List.all_eq_true, decide_eq_true_eq, and_assoc]

/-- Storing bytes keeps the canonical form. -/
theorem Memory.wf_putBytes {m : Memory} (a : Nat) (l : List Byte) (h : m.wf = true) : (putBytes m a l).wf = true := by
  rw [Memory.wf_iff] at h ⊢
  obtain ⟨h1, h2, h3, h4⟩ := h
  refine ⟨?_, h2, ?_, h4⟩
  · rw [keysRise_iff] at h1 ⊢
    simp only [putBytes, List.pairwise_append]
    refine ⟨⟨h1.filter _, (keysRise_iff _).1 (cellsOf_rise a l), ?_⟩, h1.filter _, ?_⟩
    · intro e he f hf; have := cellsOf_bounds hf; simp at he; omega
    · intro e he f hf; simp at he hf
      rcases he with he | he
      · omega
      · have := cellsOf_bounds he; omega
  · intro e he
    simp only [putBytes, List.mem_append, List.mem_filter] at he
    rcases he with (he | he) | he
    · exact h3 e he.1
    · exact (cellsOf_bounds he).2.2
    · exact h3 e he.1

/-- Storing a mark keeps the canonical form. -/
theorem Memory.wf_putMark {m : Memory} (a : Nat) (w : Word32) (h : m.wf = true) : (putMark m a w).wf = true := by
  rw [Memory.wf_iff] at h ⊢
  obtain ⟨h1, h2, h3, h4⟩ := h
  simp only [putMark]
  split_ifs with hz
  · exact ⟨h1, keysRise_erase _ h2, h3, fun e he => h4 e (List.mem_of_mem_filter he)⟩
  · refine ⟨h1, keysRise_put _ _ h2, h3, fun e he => ?_⟩
    rcases smapPut_mem he with rfl | he
    · by_cases hs : a < stackBase
      · exact .inr fun hw => hz ⟨hs, hw⟩
      · left; show stackBase ≤ a / 64 * 64; unfold stackBase at *; omega
    · exact h4 e he

/-- Storing a line keeps the canonical form. -/
theorem Memory.wf_putLine {m : Memory} (a : Nat) (l : Line) (h : m.wf = true) : (putLine m a l).wf = true :=
  Memory.wf_putMark a l.mark (Memory.wf_putBytes a l.bytes h)

theorem storeLine_wf {s : State} (a : Nat) (l : Line) (h : s.mem.wf = true) : (storeLine s a l).mem.wf = true :=
  Memory.wf_putLine a l h

/-- Memory right after reset is in canonical form. -/
theorem reset_mem_wf : State.reset.mem.wf = true := by decide

end Sys2Proof.Machine
end

