-- ==== Sys2Proof/Laws/State.lean ====
section
/-! SUPPORT. What each update of the state leaves alone, field by field, and what the shared counters, events, wrappers and ends of
streams can do. -/
namespace Sys2Proof.Machine

@[simp] theorem setReg_pending (s : State) (k v : Nat) : (setReg s k v).pending = s.pending := rfl
@[simp] theorem setReg_strs (s : State) (k v : Nat) : (setReg s k v).strs = s.strs := rfl
@[simp] theorem setReg_pins (s : State) (k v : Nat) : (setReg s k v).pins = s.pins := rfl
@[simp] theorem setReg_align (s : State) (k v : Nat) : (setReg s k v).align = s.align := rfl
@[simp] theorem setReg_mason (s : State) (k v : Nat) : (setReg s k v).mason = s.mason := rfl
@[simp] theorem setReg_tracker (s : State) (k v : Nat) : (setReg s k v).tracker = s.tracker := rfl
@[simp] theorem setReg_mem (s : State) (k v : Nat) : (setReg s k v).mem = s.mem := rfl
@[simp] theorem setReg_homes (s : State) (k v : Nat) : (setReg s k v).homes = s.homes := rfl
@[simp] theorem setReg_wb (s : State) (k v : Nat) : (setReg s k v).wb = s.wb := rfl
@[simp] theorem setReg_verdicts (s : State) (k v : Nat) : (setReg s k v).verdicts = s.verdicts := rfl
@[simp] theorem setReg_epOut (s : State) (k v : Nat) : (setReg s k v).epOut = s.epOut := rfl
@[simp] theorem setReg_chan (s : State) (k v : Nat) : (setReg s k v).chan = s.chan := rfl
@[simp] theorem setReg_hod (s : State) (k v : Nat) : (setReg s k v).hod = s.hod := rfl
@[simp] theorem setReg_digests (s : State) (k v : Nat) : (setReg s k v).digests = s.digests := rfl
@[simp] theorem setReg_visits (s : State) (k v : Nat) : (setReg s k v).visits = s.visits := rfl
@[simp] theorem setReg_layers (s : State) (k v : Nat) : (setReg s k v).layers = s.layers := rfl
@[simp] theorem setReg_rdx (s : State) (k v : Nat) : (setReg s k v).rdx = s.rdx := rfl
@[simp] theorem setReg_programs (s : State) (k v : Nat) : (setReg s k v).programs = s.programs := rfl
@[simp] theorem setReg_mixer (s : State) (k v : Nat) : (setReg s k v).mixer = s.mixer := rfl
@[simp] theorem setReg_members (s : State) (k v : Nat) : (setReg s k v).members = s.members := rfl
@[simp] theorem setReg_repairs (s : State) (k v : Nat) : (setReg s k v).repairs = s.repairs := rfl
@[simp] theorem setReg_contribs (s : State) (k v : Nat) : (setReg s k v).contribs = s.contribs := rfl
@[simp] theorem setReg_fabric (s : State) (k v : Nat) : (setReg s k v).fabric = s.fabric := rfl
@[simp] theorem setReg_barriers (s : State) (k v : Nat) : (setReg s k v).barriers = s.barriers := rfl
@[simp] theorem setReg_bcasts (s : State) (k v : Nat) : (setReg s k v).bcasts = s.bcasts := rfl
@[simp] theorem setReg_tokens (s : State) (k v : Nat) : (setReg s k v).tokens = s.tokens := rfl
@[simp] theorem setReg_pace (s : State) (k v : Nat) : (setReg s k v).pace = s.pace := rfl
@[simp] theorem setReg_safety (s : State) (k v : Nat) : (setReg s k v).safety = s.safety := rfl
@[simp] theorem setReg_scrub (s : State) (k v : Nat) : (setReg s k v).scrub = s.scrub := rfl
@[simp] theorem setReg_snaps (s : State) (k v : Nat) : (setReg s k v).snaps = s.snaps := rfl
@[simp] theorem setReg_mgmt (s : State) (k v : Nat) : (setReg s k v).mgmt = s.mgmt := rfl
@[simp] theorem setReg_time (s : State) (k v : Nat) : (setReg s k v).time = s.time := rfl
@[simp] theorem setReg_life (s : State) (k v : Nat) : (setReg s k v).life = s.life := rfl
@[simp] theorem setReg_sdo (s : State) (k v : Nat) : (setReg s k v).sdo = s.sdo := rfl
@[simp] theorem setReg_fresh (s : State) (k v : Nat) : (setReg s k v).fresh = s.fresh := rfl

@[simp] theorem setStr_pending (s : State) (k : Nat) (b : List Byte) : (setStr s k b).pending = s.pending := rfl
@[simp] theorem setStr_regs (s : State) (k : Nat) (b : List Byte) : (setStr s k b).regs = s.regs := rfl
@[simp] theorem setStr_pins (s : State) (k : Nat) (b : List Byte) : (setStr s k b).pins = s.pins := rfl
@[simp] theorem setStr_align (s : State) (k : Nat) (b : List Byte) : (setStr s k b).align = s.align := rfl
@[simp] theorem setStr_mason (s : State) (k : Nat) (b : List Byte) : (setStr s k b).mason = s.mason := rfl
@[simp] theorem setStr_tracker (s : State) (k : Nat) (b : List Byte) : (setStr s k b).tracker = s.tracker := rfl
@[simp] theorem setStr_mem (s : State) (k : Nat) (b : List Byte) : (setStr s k b).mem = s.mem := rfl
@[simp] theorem setStr_homes (s : State) (k : Nat) (b : List Byte) : (setStr s k b).homes = s.homes := rfl
@[simp] theorem setStr_wb (s : State) (k : Nat) (b : List Byte) : (setStr s k b).wb = s.wb := rfl
@[simp] theorem setStr_verdicts (s : State) (k : Nat) (b : List Byte) : (setStr s k b).verdicts = s.verdicts := rfl
@[simp] theorem setStr_epOut (s : State) (k : Nat) (b : List Byte) : (setStr s k b).epOut = s.epOut := rfl
@[simp] theorem setStr_chan (s : State) (k : Nat) (b : List Byte) : (setStr s k b).chan = s.chan := rfl
@[simp] theorem setStr_hod (s : State) (k : Nat) (b : List Byte) : (setStr s k b).hod = s.hod := rfl
@[simp] theorem setStr_digests (s : State) (k : Nat) (b : List Byte) : (setStr s k b).digests = s.digests := rfl
@[simp] theorem setStr_visits (s : State) (k : Nat) (b : List Byte) : (setStr s k b).visits = s.visits := rfl
@[simp] theorem setStr_layers (s : State) (k : Nat) (b : List Byte) : (setStr s k b).layers = s.layers := rfl
@[simp] theorem setStr_rdx (s : State) (k : Nat) (b : List Byte) : (setStr s k b).rdx = s.rdx := rfl
@[simp] theorem setStr_programs (s : State) (k : Nat) (b : List Byte) : (setStr s k b).programs = s.programs := rfl
@[simp] theorem setStr_mixer (s : State) (k : Nat) (b : List Byte) : (setStr s k b).mixer = s.mixer := rfl
@[simp] theorem setStr_members (s : State) (k : Nat) (b : List Byte) : (setStr s k b).members = s.members := rfl
@[simp] theorem setStr_repairs (s : State) (k : Nat) (b : List Byte) : (setStr s k b).repairs = s.repairs := rfl
@[simp] theorem setStr_contribs (s : State) (k : Nat) (b : List Byte) : (setStr s k b).contribs = s.contribs := rfl
@[simp] theorem setStr_fabric (s : State) (k : Nat) (b : List Byte) : (setStr s k b).fabric = s.fabric := rfl
@[simp] theorem setStr_barriers (s : State) (k : Nat) (b : List Byte) : (setStr s k b).barriers = s.barriers := rfl
@[simp] theorem setStr_bcasts (s : State) (k : Nat) (b : List Byte) : (setStr s k b).bcasts = s.bcasts := rfl
@[simp] theorem setStr_tokens (s : State) (k : Nat) (b : List Byte) : (setStr s k b).tokens = s.tokens := rfl
@[simp] theorem setStr_pace (s : State) (k : Nat) (b : List Byte) : (setStr s k b).pace = s.pace := rfl
@[simp] theorem setStr_safety (s : State) (k : Nat) (b : List Byte) : (setStr s k b).safety = s.safety := rfl
@[simp] theorem setStr_scrub (s : State) (k : Nat) (b : List Byte) : (setStr s k b).scrub = s.scrub := rfl
@[simp] theorem setStr_snaps (s : State) (k : Nat) (b : List Byte) : (setStr s k b).snaps = s.snaps := rfl
@[simp] theorem setStr_mgmt (s : State) (k : Nat) (b : List Byte) : (setStr s k b).mgmt = s.mgmt := rfl
@[simp] theorem setStr_time (s : State) (k : Nat) (b : List Byte) : (setStr s k b).time = s.time := rfl
@[simp] theorem setStr_life (s : State) (k : Nat) (b : List Byte) : (setStr s k b).life = s.life := rfl
@[simp] theorem setStr_sdo (s : State) (k : Nat) (b : List Byte) : (setStr s k b).sdo = s.sdo := rfl
@[simp] theorem setStr_fresh (s : State) (k : Nat) (b : List Byte) : (setStr s k b).fresh = s.fresh := rfl

@[simp] theorem storeLine_pending (s : State) (a : Nat) (l : Line) : (storeLine s a l).pending = s.pending := rfl
@[simp] theorem storeLine_regs (s : State) (a : Nat) (l : Line) : (storeLine s a l).regs = s.regs := rfl
@[simp] theorem storeLine_strs (s : State) (a : Nat) (l : Line) : (storeLine s a l).strs = s.strs := rfl
@[simp] theorem storeLine_pins (s : State) (a : Nat) (l : Line) : (storeLine s a l).pins = s.pins := rfl
@[simp] theorem storeLine_align (s : State) (a : Nat) (l : Line) : (storeLine s a l).align = s.align := rfl
@[simp] theorem storeLine_mason (s : State) (a : Nat) (l : Line) : (storeLine s a l).mason = s.mason := rfl
@[simp] theorem storeLine_tracker (s : State) (a : Nat) (l : Line) : (storeLine s a l).tracker = s.tracker := rfl
@[simp] theorem storeLine_homes (s : State) (a : Nat) (l : Line) : (storeLine s a l).homes = s.homes := rfl
@[simp] theorem storeLine_wb (s : State) (a : Nat) (l : Line) : (storeLine s a l).wb = s.wb := rfl
@[simp] theorem storeLine_verdicts (s : State) (a : Nat) (l : Line) : (storeLine s a l).verdicts = s.verdicts := rfl
@[simp] theorem storeLine_epOut (s : State) (a : Nat) (l : Line) : (storeLine s a l).epOut = s.epOut := rfl
@[simp] theorem storeLine_chan (s : State) (a : Nat) (l : Line) : (storeLine s a l).chan = s.chan := rfl
@[simp] theorem storeLine_hod (s : State) (a : Nat) (l : Line) : (storeLine s a l).hod = s.hod := rfl
@[simp] theorem storeLine_digests (s : State) (a : Nat) (l : Line) : (storeLine s a l).digests = s.digests := rfl
@[simp] theorem storeLine_visits (s : State) (a : Nat) (l : Line) : (storeLine s a l).visits = s.visits := rfl
@[simp] theorem storeLine_layers (s : State) (a : Nat) (l : Line) : (storeLine s a l).layers = s.layers := rfl
@[simp] theorem storeLine_rdx (s : State) (a : Nat) (l : Line) : (storeLine s a l).rdx = s.rdx := rfl
@[simp] theorem storeLine_programs (s : State) (a : Nat) (l : Line) : (storeLine s a l).programs = s.programs := rfl
@[simp] theorem storeLine_mixer (s : State) (a : Nat) (l : Line) : (storeLine s a l).mixer = s.mixer := rfl
@[simp] theorem storeLine_members (s : State) (a : Nat) (l : Line) : (storeLine s a l).members = s.members := rfl
@[simp] theorem storeLine_repairs (s : State) (a : Nat) (l : Line) : (storeLine s a l).repairs = s.repairs := rfl
@[simp] theorem storeLine_contribs (s : State) (a : Nat) (l : Line) : (storeLine s a l).contribs = s.contribs := rfl
@[simp] theorem storeLine_fabric (s : State) (a : Nat) (l : Line) : (storeLine s a l).fabric = s.fabric := rfl
@[simp] theorem storeLine_barriers (s : State) (a : Nat) (l : Line) : (storeLine s a l).barriers = s.barriers := rfl
@[simp] theorem storeLine_bcasts (s : State) (a : Nat) (l : Line) : (storeLine s a l).bcasts = s.bcasts := rfl
@[simp] theorem storeLine_tokens (s : State) (a : Nat) (l : Line) : (storeLine s a l).tokens = s.tokens := rfl
@[simp] theorem storeLine_pace (s : State) (a : Nat) (l : Line) : (storeLine s a l).pace = s.pace := rfl
@[simp] theorem storeLine_safety (s : State) (a : Nat) (l : Line) : (storeLine s a l).safety = s.safety := rfl
@[simp] theorem storeLine_scrub (s : State) (a : Nat) (l : Line) : (storeLine s a l).scrub = s.scrub := rfl
@[simp] theorem storeLine_snaps (s : State) (a : Nat) (l : Line) : (storeLine s a l).snaps = s.snaps := rfl
@[simp] theorem storeLine_mgmt (s : State) (a : Nat) (l : Line) : (storeLine s a l).mgmt = s.mgmt := rfl
@[simp] theorem storeLine_time (s : State) (a : Nat) (l : Line) : (storeLine s a l).time = s.time := rfl
@[simp] theorem storeLine_life (s : State) (a : Nat) (l : Line) : (storeLine s a l).life = s.life := rfl
@[simp] theorem storeLine_sdo (s : State) (a : Nat) (l : Line) : (storeLine s a l).sdo = s.sdo := rfl
@[simp] theorem storeLine_fresh (s : State) (a : Nat) (l : Line) : (storeLine s a l).fresh = s.fresh := rfl

@[simp] theorem updStream_pending (s : State) (sid : Nat) (f : Stream → Stream) : (updStream s sid f).pending = s.pending := rfl
@[simp] theorem updStream_regs (s : State) (sid : Nat) (f : Stream → Stream) : (updStream s sid f).regs = s.regs := rfl
@[simp] theorem updStream_strs (s : State) (sid : Nat) (f : Stream → Stream) : (updStream s sid f).strs = s.strs := rfl
@[simp] theorem updStream_pins (s : State) (sid : Nat) (f : Stream → Stream) : (updStream s sid f).pins = s.pins := rfl
@[simp] theorem updStream_align (s : State) (sid : Nat) (f : Stream → Stream) : (updStream s sid f).align = s.align := rfl
@[simp] theorem updStream_mason (s : State) (sid : Nat) (f : Stream → Stream) : (updStream s sid f).mason = s.mason := rfl
@[simp] theorem updStream_mem (s : State) (sid : Nat) (f : Stream → Stream) : (updStream s sid f).mem = s.mem := rfl
@[simp] theorem updStream_homes (s : State) (sid : Nat) (f : Stream → Stream) : (updStream s sid f).homes = s.homes := rfl
@[simp] theorem updStream_wb (s : State) (sid : Nat) (f : Stream → Stream) : (updStream s sid f).wb = s.wb := rfl
@[simp] theorem updStream_verdicts (s : State) (sid : Nat) (f : Stream → Stream) : (updStream s sid f).verdicts = s.verdicts := rfl
@[simp] theorem updStream_epOut (s : State) (sid : Nat) (f : Stream → Stream) : (updStream s sid f).epOut = s.epOut := rfl
@[simp] theorem updStream_chan (s : State) (sid : Nat) (f : Stream → Stream) : (updStream s sid f).chan = s.chan := rfl
@[simp] theorem updStream_hod (s : State) (sid : Nat) (f : Stream → Stream) : (updStream s sid f).hod = s.hod := rfl
@[simp] theorem updStream_digests (s : State) (sid : Nat) (f : Stream → Stream) : (updStream s sid f).digests = s.digests := rfl
@[simp] theorem updStream_visits (s : State) (sid : Nat) (f : Stream → Stream) : (updStream s sid f).visits = s.visits := rfl
@[simp] theorem updStream_layers (s : State) (sid : Nat) (f : Stream → Stream) : (updStream s sid f).layers = s.layers := rfl
@[simp] theorem updStream_rdx (s : State) (sid : Nat) (f : Stream → Stream) : (updStream s sid f).rdx = s.rdx := rfl
@[simp] theorem updStream_programs (s : State) (sid : Nat) (f : Stream → Stream) : (updStream s sid f).programs = s.programs := rfl
@[simp] theorem updStream_mixer (s : State) (sid : Nat) (f : Stream → Stream) : (updStream s sid f).mixer = s.mixer := rfl
@[simp] theorem updStream_members (s : State) (sid : Nat) (f : Stream → Stream) : (updStream s sid f).members = s.members := rfl
@[simp] theorem updStream_repairs (s : State) (sid : Nat) (f : Stream → Stream) : (updStream s sid f).repairs = s.repairs := rfl
@[simp] theorem updStream_contribs (s : State) (sid : Nat) (f : Stream → Stream) : (updStream s sid f).contribs = s.contribs := rfl
@[simp] theorem updStream_fabric (s : State) (sid : Nat) (f : Stream → Stream) : (updStream s sid f).fabric = s.fabric := rfl
@[simp] theorem updStream_barriers (s : State) (sid : Nat) (f : Stream → Stream) : (updStream s sid f).barriers = s.barriers := rfl
@[simp] theorem updStream_bcasts (s : State) (sid : Nat) (f : Stream → Stream) : (updStream s sid f).bcasts = s.bcasts := rfl
@[simp] theorem updStream_tokens (s : State) (sid : Nat) (f : Stream → Stream) : (updStream s sid f).tokens = s.tokens := rfl
@[simp] theorem updStream_pace (s : State) (sid : Nat) (f : Stream → Stream) : (updStream s sid f).pace = s.pace := rfl
@[simp] theorem updStream_safety (s : State) (sid : Nat) (f : Stream → Stream) : (updStream s sid f).safety = s.safety := rfl
@[simp] theorem updStream_scrub (s : State) (sid : Nat) (f : Stream → Stream) : (updStream s sid f).scrub = s.scrub := rfl
@[simp] theorem updStream_snaps (s : State) (sid : Nat) (f : Stream → Stream) : (updStream s sid f).snaps = s.snaps := rfl
@[simp] theorem updStream_mgmt (s : State) (sid : Nat) (f : Stream → Stream) : (updStream s sid f).mgmt = s.mgmt := rfl
@[simp] theorem updStream_time (s : State) (sid : Nat) (f : Stream → Stream) : (updStream s sid f).time = s.time := rfl
@[simp] theorem updStream_life (s : State) (sid : Nat) (f : Stream → Stream) : (updStream s sid f).life = s.life := rfl
@[simp] theorem updStream_sdo (s : State) (sid : Nat) (f : Stream → Stream) : (updStream s sid f).sdo = s.sdo := rfl
@[simp] theorem updStream_fresh (s : State) (sid : Nat) (f : Stream → Stream) : (updStream s sid f).fresh = s.fresh := rfl

@[simp] theorem putStream_pending (s : State) (x : Stream) : (putStream s x).pending = s.pending := rfl
@[simp] theorem putStream_regs (s : State) (x : Stream) : (putStream s x).regs = s.regs := rfl
@[simp] theorem putStream_strs (s : State) (x : Stream) : (putStream s x).strs = s.strs := rfl
@[simp] theorem putStream_pins (s : State) (x : Stream) : (putStream s x).pins = s.pins := rfl
@[simp] theorem putStream_align (s : State) (x : Stream) : (putStream s x).align = s.align := rfl
@[simp] theorem putStream_mason (s : State) (x : Stream) : (putStream s x).mason = s.mason := rfl
@[simp] theorem putStream_mem (s : State) (x : Stream) : (putStream s x).mem = s.mem := rfl
@[simp] theorem putStream_homes (s : State) (x : Stream) : (putStream s x).homes = s.homes := rfl
@[simp] theorem putStream_wb (s : State) (x : Stream) : (putStream s x).wb = s.wb := rfl
@[simp] theorem putStream_verdicts (s : State) (x : Stream) : (putStream s x).verdicts = s.verdicts := rfl
@[simp] theorem putStream_epOut (s : State) (x : Stream) : (putStream s x).epOut = s.epOut := rfl
@[simp] theorem putStream_chan (s : State) (x : Stream) : (putStream s x).chan = s.chan := rfl
@[simp] theorem putStream_hod (s : State) (x : Stream) : (putStream s x).hod = s.hod := rfl
@[simp] theorem putStream_digests (s : State) (x : Stream) : (putStream s x).digests = s.digests := rfl
@[simp] theorem putStream_visits (s : State) (x : Stream) : (putStream s x).visits = s.visits := rfl
@[simp] theorem putStream_layers (s : State) (x : Stream) : (putStream s x).layers = s.layers := rfl
@[simp] theorem putStream_rdx (s : State) (x : Stream) : (putStream s x).rdx = s.rdx := rfl
@[simp] theorem putStream_programs (s : State) (x : Stream) : (putStream s x).programs = s.programs := rfl
@[simp] theorem putStream_mixer (s : State) (x : Stream) : (putStream s x).mixer = s.mixer := rfl
@[simp] theorem putStream_members (s : State) (x : Stream) : (putStream s x).members = s.members := rfl
@[simp] theorem putStream_repairs (s : State) (x : Stream) : (putStream s x).repairs = s.repairs := rfl
@[simp] theorem putStream_contribs (s : State) (x : Stream) : (putStream s x).contribs = s.contribs := rfl
@[simp] theorem putStream_fabric (s : State) (x : Stream) : (putStream s x).fabric = s.fabric := rfl
@[simp] theorem putStream_barriers (s : State) (x : Stream) : (putStream s x).barriers = s.barriers := rfl
@[simp] theorem putStream_bcasts (s : State) (x : Stream) : (putStream s x).bcasts = s.bcasts := rfl
@[simp] theorem putStream_tokens (s : State) (x : Stream) : (putStream s x).tokens = s.tokens := rfl
@[simp] theorem putStream_pace (s : State) (x : Stream) : (putStream s x).pace = s.pace := rfl
@[simp] theorem putStream_safety (s : State) (x : Stream) : (putStream s x).safety = s.safety := rfl
@[simp] theorem putStream_scrub (s : State) (x : Stream) : (putStream s x).scrub = s.scrub := rfl
@[simp] theorem putStream_snaps (s : State) (x : Stream) : (putStream s x).snaps = s.snaps := rfl
@[simp] theorem putStream_mgmt (s : State) (x : Stream) : (putStream s x).mgmt = s.mgmt := rfl
@[simp] theorem putStream_time (s : State) (x : Stream) : (putStream s x).time = s.time := rfl
@[simp] theorem putStream_life (s : State) (x : Stream) : (putStream s x).life = s.life := rfl
@[simp] theorem putStream_sdo (s : State) (x : Stream) : (putStream s x).sdo = s.sdo := rfl
@[simp] theorem putStream_fresh (s : State) (x : Stream) : (putStream s x).fresh = s.fresh := rfl

@[simp] theorem setFinish_pending (s : State) (sid : Nat) : (setFinish s sid).pending = s.pending := rfl
@[simp] theorem setFinish_regs (s : State) (sid : Nat) : (setFinish s sid).regs = s.regs := rfl
@[simp] theorem setFinish_strs (s : State) (sid : Nat) : (setFinish s sid).strs = s.strs := rfl
@[simp] theorem setFinish_pins (s : State) (sid : Nat) : (setFinish s sid).pins = s.pins := rfl
@[simp] theorem setFinish_align (s : State) (sid : Nat) : (setFinish s sid).align = s.align := rfl
@[simp] theorem setFinish_mason (s : State) (sid : Nat) : (setFinish s sid).mason = s.mason := rfl
@[simp] theorem setFinish_mem (s : State) (sid : Nat) : (setFinish s sid).mem = s.mem := rfl
@[simp] theorem setFinish_homes (s : State) (sid : Nat) : (setFinish s sid).homes = s.homes := rfl
@[simp] theorem setFinish_wb (s : State) (sid : Nat) : (setFinish s sid).wb = s.wb := rfl
@[simp] theorem setFinish_verdicts (s : State) (sid : Nat) : (setFinish s sid).verdicts = s.verdicts := rfl
@[simp] theorem setFinish_epOut (s : State) (sid : Nat) : (setFinish s sid).epOut = s.epOut := rfl
@[simp] theorem setFinish_chan (s : State) (sid : Nat) : (setFinish s sid).chan = s.chan := rfl
@[simp] theorem setFinish_hod (s : State) (sid : Nat) : (setFinish s sid).hod = s.hod := rfl
@[simp] theorem setFinish_digests (s : State) (sid : Nat) : (setFinish s sid).digests = s.digests := rfl
@[simp] theorem setFinish_visits (s : State) (sid : Nat) : (setFinish s sid).visits = s.visits := rfl
@[simp] theorem setFinish_layers (s : State) (sid : Nat) : (setFinish s sid).layers = s.layers := rfl
@[simp] theorem setFinish_rdx (s : State) (sid : Nat) : (setFinish s sid).rdx = s.rdx := rfl
@[simp] theorem setFinish_programs (s : State) (sid : Nat) : (setFinish s sid).programs = s.programs := rfl
@[simp] theorem setFinish_mixer (s : State) (sid : Nat) : (setFinish s sid).mixer = s.mixer := rfl
@[simp] theorem setFinish_members (s : State) (sid : Nat) : (setFinish s sid).members = s.members := rfl
@[simp] theorem setFinish_repairs (s : State) (sid : Nat) : (setFinish s sid).repairs = s.repairs := rfl
@[simp] theorem setFinish_contribs (s : State) (sid : Nat) : (setFinish s sid).contribs = s.contribs := rfl
@[simp] theorem setFinish_fabric (s : State) (sid : Nat) : (setFinish s sid).fabric = s.fabric := rfl
@[simp] theorem setFinish_barriers (s : State) (sid : Nat) : (setFinish s sid).barriers = s.barriers := rfl
@[simp] theorem setFinish_bcasts (s : State) (sid : Nat) : (setFinish s sid).bcasts = s.bcasts := rfl
@[simp] theorem setFinish_tokens (s : State) (sid : Nat) : (setFinish s sid).tokens = s.tokens := rfl
@[simp] theorem setFinish_pace (s : State) (sid : Nat) : (setFinish s sid).pace = s.pace := rfl
@[simp] theorem setFinish_safety (s : State) (sid : Nat) : (setFinish s sid).safety = s.safety := rfl
@[simp] theorem setFinish_scrub (s : State) (sid : Nat) : (setFinish s sid).scrub = s.scrub := rfl
@[simp] theorem setFinish_snaps (s : State) (sid : Nat) : (setFinish s sid).snaps = s.snaps := rfl
@[simp] theorem setFinish_mgmt (s : State) (sid : Nat) : (setFinish s sid).mgmt = s.mgmt := rfl
@[simp] theorem setFinish_time (s : State) (sid : Nat) : (setFinish s sid).time = s.time := rfl
@[simp] theorem setFinish_life (s : State) (sid : Nat) : (setFinish s sid).life = s.life := rfl
@[simp] theorem setFinish_sdo (s : State) (sid : Nat) : (setFinish s sid).sdo = s.sdo := rfl
@[simp] theorem setFinish_fresh (s : State) (sid : Nat) : (setFinish s sid).fresh = s.fresh := rfl

/-! Registers and string entries. -/

theorem reg_setReg (s : State) (k i v : Nat) : reg (setReg s k v) i = if i = k then v else reg s i :=
  smapGet_set regDefault s.regs k i v

@[simp] theorem reg_setReg_self (s : State) (k v : Nat) : reg (setReg s k v) k = v := by simp [reg_setReg]

theorem reg_setReg_other (s : State) {k i : Nat} (v : Nat) (h : i ≠ k) : reg (setReg s k v) i = reg s i := by
  simp [reg_setReg, h]

/-- Two states with the same register file read every register alike. -/
theorem reg_congr {s t : State} (h : t.regs = s.regs) (k : Nat) : reg t k = reg s k := by simp [reg, h]

theorem strN_setStr_self (s : State) (k n : Nat) (b : List Byte) : strN (setStr s k b) k n = b := by simp [strN, setStr]

/-- Writing a register keeps the register file's canonical form. -/
theorem setReg_canon {s : State} (k v : Nat) (h : canonNat regDefault s.regs = true) :
    canonNat regDefault (setReg s k v).regs = true := canonNat_set k v h

/-! Counters and events. -/

/-- A counter's addition changes that register alone. -/
theorem bump_frame (s : State) (k n : Nat) : ∃ r, bump s k n = { s with regs := r } := by
  unfold bump; split_ifs
  · exact ⟨_, rfl⟩
  · exact ⟨_, rfl⟩
  · exact ⟨_, rfl⟩

theorem reg_bump_other (s : State) {k i : Nat} (n : Nat) (h : i ≠ k) : reg (bump s k n) i = reg s i := by
  unfold bump; split_ifs <;> simp [reg_setReg, h]

/-- A counter that does not saturate counts. -/
theorem reg_bump_self (s : State) (k n : Nat) (h : reg s k + n ≤ countMax) : reg (bump s k n) k = reg s k + n := by
  have : ¬ countSticky ≤ reg s k := by unfold countSticky countMax at *; omega
  simp [bump, this, h]

/-- An event in the ring changes registers and the safety monitor alone. -/
theorem ringPut_frame (s : State) (w : Nat) : ∃ r f, ringPut s w = { s with regs := r, safety := f } := by
  unfold ringPut; split_ifs
  · obtain ⟨r, h⟩ := bump_frame s K.EV_LOST 1; exact ⟨r, s.safety, by rw [h]⟩
  · exact ⟨_, _, rfl⟩

/-- An event changes registers and the safety monitor alone. -/
theorem raise_frame (s : State) (code station unit : Nat) (part : Option Nat) (tree : Bool) (detail : Nat) :
    ∃ r f, raise s code station unit part tree detail = { s with regs := r, safety := f } := by
  unfold raise
  dsimp only
  split_ifs
  · exact ⟨_, _, rfl⟩
  all_goals
    exact ⟨_, _, (ringPut_frame _ _).choose_spec.choose_spec⟩

/-- A draw advances the model's own counter of free values alone. -/
@[simp] theorem draw_fst (s : State) : (draw s).1 = { s with fresh := s.fresh + 1 } := rfl

/-! The wrappers of the meanings. -/

@[simp] theorem keep_pending (s t : State) : (keep s t).pending = s.pending := rfl
@[simp] theorem keep_alive (s t : State) : alive (keep s t) = alive s := rfl

/-- A change that leaves the queue, the supplies and RESETn alone is kept whole. -/
theorem keep_eq {s t : State} (h : t.pending = s.pending) (hp : t.pins = s.pins) : keep s t = t := by
  cases t; cases s; simp only at h hp; subst h; subst hp; rfl

theorem whenWorking_on {s t : State} (h : working s = true) : whenWorking s t = .next (keep s t) := by simp [whenWorking, h]
theorem whenWorking_off {s t : State} (h : working s = false) : whenWorking s t = .next s := by simp [whenWorking, h]
theorem whenAlive_on {s t : State} (h : alive s = true) : whenAlive s t = .next (keep s t) := by simp [whenAlive, h]
theorem whenAlive_off {s t : State} (h : alive s = false) : whenAlive s t = .next s := by simp [whenAlive, h]

/-- Stations that work have RESETn high. -/
theorem alive_of_working {s : State} (h : working s = true) : alive s = true := by
  simp only [working, Bool.and_eq_true] at h; exact h.1.1

theorem onStream_on {s : State} {sid op : Nat} {x : Stream} (f : State → Stream → State) (h : running s sid op = some x) :
    onStream s sid op f = f s x := by simp [onStream, h]
theorem onStream_off {s : State} {sid op : Nat} (f : State → Stream → State) (h : running s sid op = none) :
    onStream s sid op f = s := by simp [onStream, h]

/-- A running stream is in the tracker under its number, unfinished. -/
theorem running_spec {s : State} {sid op : Nat} {x : Stream} (h : running s sid op = some x) :
    findStream s sid = some x ∧ x.id = sid ∧ x.taken = true ∧ x.d.opcode = op ∧ x.fenceWait = false ∧ x.hold = 0 ∧ x.finish = none ∧
      x.closing = false := by
  unfold running at h
  cases hf : findStream s sid with
  | none => simp [hf] at h
  | some y =>
    simp only [hf] at h
    split_ifs at h with hc
    obtain rfl := Option.some.inj h
    have hid : y.id = sid := by simpa using List.find?_some hf
    simp only [Bool.and_eq_true, decide_eq_true_eq, Bool.not_eq_true', Option.isNone_iff_eq_none] at hc
    exact ⟨rfl, hid, hc.1.1.1.1.1, hc.1.1.1.1.2, hc.1.1.1.2, hc.1.1.2, hc.1.2, hc.2⟩

/-! Streams. -/

theorem find_map_same {l : List Stream} {sid : Nat} {f : Stream → Stream} (hf : ∀ y, (f y).id = y.id) :
    (l.map (fun y => if y.id = sid then f y else y)).find? (fun y => decide (y.id = sid)) =
      (l.find? (fun y => decide (y.id = sid))).map f := by
  induction l with
  | nil => rfl
  | cons a t ih =>
    by_cases h : a.id = sid
    · simp [h, hf]
    · simp [h, ih]

theorem find_map_other {l : List Stream} {sid j : Nat} {f : Stream → Stream} (hf : ∀ y, (f y).id = y.id) (h : j ≠ sid) :
    (l.map (fun y => if y.id = sid then f y else y)).find? (fun y => decide (y.id = j)) = l.find? (fun y => decide (y.id = j)) := by
  induction l with
  | nil => rfl
  | cons a t ih =>
    by_cases ha : a.id = sid
    · have : a.id ≠ j := by rw [ha]; exact h.symm
      simp [ha, hf, ih, h.symm]
    · by_cases hj : a.id = j
      · rw [List.map_cons, if_neg ha, List.find?_cons_of_pos (by simpa using hj), List.find?_cons_of_pos (by simpa using hj)]
      · rw [List.map_cons, if_neg ha, List.find?_cons_of_neg (by simpa using hj), List.find?_cons_of_neg (by simpa using hj), ih]

/-- A changed stream is found changed, and the others as they were. -/
theorem findStream_upd {s : State} {sid : Nat} {f : Stream → Stream} (hf : ∀ y, (f y).id = y.id) (j : Nat) :
    findStream (updStream s sid f) j = if j = sid then (findStream s sid).map f else findStream s j := by
  unfold findStream updStream
  split_ifs with h
  · subst h; exact find_map_same hf
  · exact find_map_other hf h

theorem findStream_put {s : State} {x : Stream} (j : Nat) :
    findStream (putStream s x) j = if j = x.id then (findStream s x.id).map (fun _ => x) else findStream s j := by
  have key : findStream (putStream s x) j = findStream (updStream s x.id (fun y => { x with id := y.id })) j := by
    unfold findStream putStream updStream
    dsimp only
    congr 1
    refine List.map_congr_left fun y _ => ?_
    by_cases h : y.id = x.id <;> simp [h]
  rw [key, findStream_upd (f := fun y => { x with id := y.id }) (fun _ => rfl)]
  split_ifs with h
  · subst h
    cases hf : findStream s x.id with
    | none => rfl
    | some y =>
      have : y.id = x.id := by simpa using List.find?_some hf
      simp [this]
  · rfl

/-- A number that the tracker finds is the stream's own. -/
theorem findStream_id {s : State} {sid : Nat} {x : Stream} (h : findStream s sid = some x) : x.id = sid := by
  simpa using List.find?_some h

/-- The end of a stream that no store's response holds: its record's place, status and DETAIL, and nothing else. -/
theorem endStream_spec {s : State} {sid status detail : Nat} {x : Stream} (h : findStream s sid = some x) (hu : x.unacked = 0) (hn : x.finish = none) :
    (∃ t, endStream s sid status detail = { s with tracker := t }) ∧
    findStream (endStream s sid status detail) sid =
      some { x with status := status, detail := detail % 2 ^ 32, closing := false, finish := some s.tracker.nextFinish } ∧
    ∀ j, j ≠ sid → findStream (endStream s sid status detail) j = findStream s j := by
  have hid := findStream_id h
  have e : endStream s sid status detail =
      setFinish (putStream s { x with status := status, detail := detail % 2 ^ 32, closing := true }) sid := by
    simp [endStream, h, hu]
  have hf : ∀ (u : State) (n : Nat), ∀ y : Stream, (if y.finish.isNone then { y with finish := some n, closing := false } else y).id = y.id := by
    intro _ n y; split <;> rfl
  have hfind : ∀ j, findStream (setFinish (putStream s { x with status := status, detail := detail % 2 ^ 32, closing := true }) sid) j =
      if j = sid then some { x with status := status, detail := detail % 2 ^ 32, closing := false, finish := some s.tracker.nextFinish }
      else findStream s j := by
    intro j
    have : findStream (setFinish (putStream s { x with status := status, detail := detail % 2 ^ 32, closing := true }) sid) j =
        findStream (updStream (putStream s { x with status := status, detail := detail % 2 ^ 32, closing := true }) sid
          (fun y => if y.finish.isNone then { y with finish := some s.tracker.nextFinish, closing := false } else y)) j := rfl
    rw [this, findStream_upd (hf s _), findStream_put, findStream_put]
    by_cases hj : j = sid
    · subst hj; subst hid; simp [h, hn]
    · subst hid; simp [hj]
  rw [e]
  exact ⟨⟨_, rfl⟩, (hfind sid).trans (if_pos rfl), fun j hj => (hfind j).trans (if_neg hj)⟩

/-! Buckets. -/

/-- A draw on a bucket changes buckets and counters alone. -/
theorem takeTokens_frame (s : State) (kind part res n : Nat) : ∃ r k, takeTokens s kind part res n = { s with regs := r, tokens := k } := by
  have hb : ∀ (u : State) (a b : Nat), ∃ r, bump u a b = { u with regs := r } := bump_frame
  unfold takeTokens
  dsimp only
  split_ifs
  · exact ⟨_, _, rfl⟩
  · exact ⟨_, _, rfl⟩
  · split
    · obtain ⟨r, h⟩ := hb { s with tokens := smapPut s.tokens (bucketKey kind part res) 0 } (K.REG_HOLD_NS part) (ceilDiv ((n - tokensOf s kind part res) * 1000000) (max 1 (resourcePeak s res * bucketRate s kind part res)))
      rw [h]
      obtain ⟨r', h'⟩ := hb { s with tokens := smapPut s.tokens (bucketKey kind part res) 0, regs := r } (K.TIER_REG_HOLD_NS _) (ceilDiv ((n - tokensOf s kind part res) * 1000000) (max 1 (resourcePeak s res * bucketRate s kind part res)))
      exact ⟨r', _, h'⟩
    · exact ⟨_, _, (hb _ _ _).choose_spec⟩
  · exact ⟨_, _, (hb _ _ _).choose_spec⟩

/-- A charge changes buckets and counters alone. -/
theorem charge_frame (s : State) (part cls res n : Nat) : ∃ r k, charge s part cls res n = { s with regs := r, tokens := k } := by
  obtain ⟨r, k, h⟩ := takeTokens_frame s 0 part res n
  unfold charge
  rw [h]
  dsimp only
  split_ifs
  · obtain ⟨r', k', h'⟩ := takeTokens_frame { s with regs := r, tokens := k } 1 0 res n
    exact ⟨r', k', h'⟩
  · exact ⟨_, _, rfl⟩

end Sys2Proof.Machine
end

