-- ==== Sys2Proof/Laws/Storage.lean ====
section
/-! SUPPORT. What the operations over stored lines and tiles can change: the stored lines, counters, events, buckets and the memory
ports' verdicts, and no setting or state of the register file. -/
namespace Sys2Proof.Machine

theorem OnlyStorage.refl (s : State) : OnlyStorage s s := ⟨rfl, fun _ _ => rfl⟩

theorem OnlyStorage.trans {s t u : State} (h : OnlyStorage s t) (g : OnlyStorage t u) : OnlyStorage s u := by
  obtain ⟨h1, h2⟩ := h
  obtain ⟨g1, g2⟩ := g
  refine ⟨?_, fun k hk => (g2 k hk).trans (h2 k hk)⟩
  rw [g1, h1]

/-- A counter's key is no setting's. -/
theorem stateKey_low {k : Nat} (h : 0x700000 ≤ k) : stateKey k = false := by
  have : ¬ k < 0x700000 := by omega
  simp [stateKey, this]

/-- A register other than a setting or state is written. -/
theorem OnlyStorage.setReg (s : State) {k : Nat} (v : Nat) (h : stateKey k = false) : OnlyStorage s (setReg s k v) := by
  refine ⟨rfl, fun i hi => ?_⟩
  rw [reg_setReg_other]
  rintro rfl; simp [h] at hi

theorem OnlyStorage.bump (s : State) {k : Nat} (n : Nat) (h : stateKey k = false) : OnlyStorage s (bump s k n) := by
  unfold Machine.bump; split_ifs
  · exact .refl s
  · exact .setReg s _ h
  · exact .setReg s _ h

theorem OnlyStorage.lifeBump (s : State) {k : Nat} (n : Nat) (h : stateKey k = false) : OnlyStorage s (lifeBump s k n) := .setReg s _ h

theorem OnlyStorage.binBump (s : State) (hist b : Nat) : OnlyStorage s (binBump s hist b) := ⟨rfl, fun _ _ => rfl⟩

theorem OnlyStorage.safety (s : State) (f : Safety) : OnlyStorage s { s with safety := f } := ⟨rfl, fun _ _ => rfl⟩

theorem OnlyStorage.raise (s : State) (code station unit : Nat) (part : Option Nat) (tree : Bool) (detail : Nat) :
    OnlyStorage s (raise s code station unit part tree detail) := by
  have ring : ∀ (u : State) (w : Nat), OnlyStorage u (ringPut u w) := by
    intro u w
    unfold ringPut; split_ifs
    · exact .bump u 1 (by decide)
    · exact (OnlyStorage.safety u _).trans (.setReg _ _ (by decide))
  unfold Machine.raise
  dsimp only
  split_ifs
  · exact .refl s
  all_goals exact ((OnlyStorage.safety s _).trans (.setReg _ _ (by decide))).trans (ring _ _)

theorem OnlyStorage.storeLine (s : State) (a : Nat) (l : Line) : OnlyStorage s (storeLine s a l) := ⟨rfl, fun _ _ => rfl⟩

theorem OnlyStorage.countFound (s : State) (a : Nat) (f : Found) : OnlyStorage s (countFound s a f) := by
  cases f with
  | clean => exact .refl s
  | corrected n =>
    unfold Machine.countFound
    dsimp only
    refine (OnlyStorage.lifeBump s (k := ltKey 8) 1 (by decide)).trans ?_
    split_ifs
    all_goals first
      | exact .binBump _ _ _
      | exact (OnlyStorage.bump _ 1 (by decide)).trans (.binBump _ _ _)
      | exact .bump _ 1 (stateKey_low (by show 0x700000 ≤ 7401728 + 1 + _; omega))
  | poisoned =>
    unfold Machine.countFound
    dsimp only
    split_ifs
    · exact .bump _ 1 (by decide)
    · exact .refl s
  | uncorrectable =>
    unfold Machine.countFound
    dsimp only
    refine (OnlyStorage.lifeBump s (k := ltKey 9) 1 (by decide)).trans ?_
    split_ifs
    · exact (OnlyStorage.bump _ 1 (by decide)).trans (.raise _ _ _ _ _ _ _)
    · exact (OnlyStorage.bump _ 1 (stateKey_low (by show 0x700000 ≤ 7401984 + 1 + _; omega))).trans (.raise _ _ _ _ _ _ _)

theorem OnlyStorage.readLine (s : State) (a : Nat) (keepBad : Bool) : OnlyStorage s (readLine s a keepBad).1 := by
  have h := OnlyStorage.countFound s a (peekLine s.mem a).found
  unfold Machine.readLine
  dsimp only
  split
  · exact h
  all_goals split_ifs
  all_goals first | exact h | exact h.trans (.storeLine _ _ _)

theorem OnlyStorage.flipFired (s : State) : OnlyStorage s (flipFired s) := (OnlyStorage.setReg s 2 (by decide)).trans (.raise _ _ _ _ _ _ _)

theorem OnlyStorage.writeYardLine (s : State) (a : Nat) (l : Line) : OnlyStorage s (writeYardLine s a l) := by
  unfold Machine.writeYardLine; split_ifs
  · exact (OnlyStorage.storeLine s a _).trans (.flipFired _)
  · exact .storeLine s a l

theorem OnlyStorage.writePortLine (s : State) (p j a : Nat) (l : Line) : OnlyStorage s (writePortLine s p j a l) := by
  unfold Machine.writePortLine; split_ifs
  · exact (OnlyStorage.storeLine s a _).trans (.flipFired _)
  · exact .storeLine s a l

theorem OnlyStorage.takeTokens (s : State) (kind part res n : Nat) : OnlyStorage s (takeTokens s kind part res n) := by
  have tok : ∀ (u : State) (k : SMap Nat), OnlyStorage u { u with tokens := k } := fun _ _ => ⟨rfl, fun _ _ => rfl⟩
  unfold Machine.takeTokens
  dsimp only
  split_ifs
  · exact .refl s
  · exact tok s _
  · have hold : ∀ (u : State) (n : Nat), OnlyStorage u (Machine.bump u (K.REG_HOLD_NS part) n) :=
      fun u n => .bump u n (stateKey_low (by show 0x700000 ≤ 7397632 + 1 + _; omega))
    split
    · exact ((tok s _).trans (hold _ _)).trans (.bump _ _ (stateKey_low (by show 0x700000 ≤ 7352320 + 13 + _; omega)))
    · exact (tok s _).trans (hold _ _)
  · exact (tok s _).trans (.bump _ _ (by decide))

theorem OnlyStorage.charge (s : State) (part cls res n : Nat) : OnlyStorage s (charge s part cls res n) := by
  unfold Machine.charge
  dsimp only
  split_ifs
  · exact (OnlyStorage.takeTokens s _ _ _ _).trans (.takeTokens _ _ _ _ _)
  · exact .takeTokens s _ _ _ _

theorem OnlyStorage.takeVerdict (s : State) (p : Nat) : OnlyStorage s (takeVerdict s p).1 := by
  unfold Machine.takeVerdict; split
  · exact ⟨rfl, fun _ _ => rfl⟩
  · exact .refl s

theorem OnlyStorage.mpFailure (s : State) (p cause : Nat) : OnlyStorage s (mpFailure s p cause) :=
  (OnlyStorage.bump s 1 (stateKey_low (by show 0x700000 ≤ 7353088 + 1 + _; omega))).trans (.raise _ _ _ _ _ _ _)

theorem OnlyStorage.mpTransaction (s : State) (p : Nat) : OnlyStorage s (mpTransaction s p).1 := by
  have h1 := OnlyStorage.takeVerdict s p
  unfold Machine.mpTransaction
  split_ifs
  · exact .refl s
  · split
    · next h => rw [h] at h1; exact h1
    · next t v _ h =>
      rw [h] at h1
      dsimp only
      have h2 := h1.trans (OnlyStorage.mpFailure t p (if v = .error then 1 else 2))
      have h3 := h2.trans (OnlyStorage.takeVerdict (Machine.mpFailure t p (if v = .error then 1 else 2)) p)
      split
      · next h' => rw [h'] at h3; exact h3
      · next h' => rw [h'] at h3; exact h3.trans (.mpFailure _ _ _)

theorem OnlyStorage.readLines (s : State) (base : Nat) (keepBad : Bool) (l : List Nat) : OnlyStorage s (readLines s base keepBad l).1 := by
  induction l generalizing s with
  | nil => exact .refl s
  | cons j t ih => exact (OnlyStorage.readLine s _ keepBad).trans (ih _)

/-- A fold of steps that touch storage alone touches storage alone. -/
theorem OnlyStorage.foldl {α : Type} {f : State → α → State} (hf : ∀ s a, OnlyStorage s (f s a)) (l : List α) (s : State) :
    OnlyStorage s (l.foldl f s) := by
  induction l generalizing s with
  | nil => exact .refl s
  | cons a t ih => exact (hf s a).trans (ih _)

theorem OnlyStorage.crcMismatch (s : State) (i : Ident) (part : Option Nat) : OnlyStorage s (crcMismatch s i part) :=
  (OnlyStorage.bump s 1 (by decide)).trans (.raise _ _ _ _ _ _ _)

theorem OnlyStorage.judgeTile (s : State) (base : Nat) (info : TileMeta) (m : GotLine) (ls : List GotLine) (i : Ident) (part : Option Nat) :
    OnlyStorage s (judgeTile s base info m ls i part).1 := by
  have put : ∀ (u : State) (j : Nat), OnlyStorage u (match ls[j]? with
      | some l => Machine.storeLine u (base + 64 * j) { bytes := l.bytes, mark := poisonMark } | none => u) := by
    intro u j; split
    · exact .storeLine u _ _
    · exact .refl u
  have hp : ∀ u : State, OnlyStorage u (poisonStored u base ls) := fun u => OnlyStorage.foldl put _ u
  unfold Machine.judgeTile
  dsimp only
  split_ifs
  all_goals first
    | exact .bump s _ (by decide)
    | exact .refl s
    | exact ((OnlyStorage.bump s _ (by decide)).trans (hp _)).trans (.crcMismatch _ _ _)
    | exact (OnlyStorage.bump s _ (by decide)).trans (OnlyStorage.foldl put _ _)

theorem OnlyStorage.readTileAt (s : State) (base ma off : Nat) (coded : Bool) (i : Ident) (part : Option Nat) :
    OnlyStorage s (readTileAt s base ma off coded i part).1 := by
  have h := (OnlyStorage.readLine s ma false).trans (OnlyStorage.readLines _ base coded (List.range 64))
  cases coded with
  | true =>
    simp only [Machine.readTileAt, if_true]
    split_ifs
    · exact h.trans (.bump _ _ (by decide))
    · exact h
    · exact h.trans (.bump _ _ (by decide))
    · exact h
  | false => simp only [Machine.readTileAt, Bool.false_eq_true, if_false]; exact h.trans (.judgeTile _ _ _ _ _ _ _)

theorem OnlyStorage.readSlot (s : State) (slot : Nat) (w : Who) (coded : Bool) (i : Ident) : OnlyStorage s (readSlot s slot w coded i).1 :=
  ((OnlyStorage.charge s _ _ _ _).trans (.bump _ _ (by decide))).trans (.readTileAt _ _ _ _ _ _ _)

theorem OnlyStorage.readStack (s : State) (p o : Nat) (w : Who) (coded : Bool) (i : Ident) : OnlyStorage s (readStack s p o w coded i).1 := by
  have h := OnlyStorage.mpTransaction s p
  unfold Machine.readStack
  split
  · next e => rw [e] at h; exact h
  · next e => rw [e] at h; exact (h.trans (.charge _ _ _ _ _)).trans ((OnlyStorage.bump _ _ (by decide)).trans (.readTileAt _ _ _ _ _ _ _))

/-- Reading a tile at its home in the block touches storage alone. -/
theorem OnlyStorage.readLoc (s : State) (l : Loc) (w : Who) (coded : Bool) (i : Ident) : OnlyStorage s (readLoc s l w coded i).1 := by
  cases l with
  | yard k => exact .readSlot s k w coded i
  | stack p o => exact .readStack s p o w coded i
  | peer _ _ => exact .refl s
  | none => exact .refl s

theorem OnlyStorage.writeSlotLines (s : State) (slot : Nat) (ls : List Line) (info : TileMeta) (w : Who) :
    OnlyStorage s (writeSlotLines s slot ls info w) := by
  have put : ∀ (u : State) (j : Nat), OnlyStorage u (match ls[j]? with
      | some l => Machine.writeYardLine u (yardAddr slot j) l | none => u) := by
    intro u j; split
    · exact .writeYardLine u _ _
    · exact .refl u
  exact ((OnlyStorage.charge s _ _ _ _).trans (.bump _ _ (by decide))).trans
    ((OnlyStorage.foldl put _ _).trans ((OnlyStorage.readLine _ _ _).trans (.writeYardLine _ _ _)))

theorem OnlyStorage.writeStackLines (s : State) (p o : Nat) (ls : List Line) (info : TileMeta) (w : Who) :
    OnlyStorage s (writeStackLines s p o ls info w).1 := by
  have put : ∀ (u : State) (j : Nat), OnlyStorage u (match ls[j]? with
      | some l => Machine.writePortLine u p j (mpAddr (mpTile p o (64 * j))) l | none => u) := by
    intro u j; split
    · exact .writePortLine u _ _ _ _
    · exact .refl u
  have h := OnlyStorage.mpTransaction s p
  unfold Machine.writeStackLines
  split
  · next e => rw [e] at h; exact h
  · next e =>
    rw [e] at h
    exact (h.trans ((OnlyStorage.charge _ _ _ _ _).trans (.bump _ _ (by decide)))).trans ((OnlyStorage.foldl put _ _).trans (.storeLine _ _ _))

/-- Writing a tile at its home in the block touches storage alone. -/
theorem OnlyStorage.writeLoc (s : State) (l : Loc) (t : Tile) (w : Who) : OnlyStorage s (writeLoc s l t w).1 := by
  cases l with
  | yard k => simp only [Machine.writeLoc, Machine.writeSlot]; exact .writeSlotLines s k (tileLines t) t.info w
  | stack p o => simp only [Machine.writeLoc, Machine.writeStack]; exact .writeStackLines s p o (tileLines t) t.info w
  | peer _ _ => exact .refl s
  | none => exact .refl s

theorem OnlyStorage.structTouch (s : State) (q first o : Nat) : OnlyStorage s (structTouch s q first o) := by
  unfold Machine.structTouch; split
  · dsimp only
    split_ifs
    · exact .readTileAt s _ _ _ _ _ _
    · exact .readLine s _ _
  · exact .refl s

/-- Writing inside a line of a structure touches storage alone. -/
theorem OnlyStorage.structWrite (s : State) (q first o : Nat) (b : List Byte) : OnlyStorage s (structWrite s q first o b) := by
  have line : ∀ (u : State) (x y : Nat) (l : Line), OnlyStorage u (Machine.writeYardLine (Machine.readLine u x false).1 y l) :=
    fun u x y l => (OnlyStorage.readLine u x false).trans (.writeYardLine _ y l)
  unfold Machine.structWrite; split
  · exact .refl s
  · next k _ =>
    dsimp only
    generalize hv : Machine.writeYardLine (Machine.structTouch s q first o) (yardAddr k (o % 4096 / 64)) _ = v
    have h : OnlyStorage s v := hv ▸ (OnlyStorage.structTouch s q first o).trans (.writeYardLine _ _ _)
    exact h.trans (line v _ _ _)

end Sys2Proof.Machine
end

