-- ==== Sys2Proof/WellFormed.lean ====
section
/-! DEFINITION. The ranges of a command's operands: queues (R41), partitions (R10), ports (R70), lane groups (R4), the shapes of
lines, tiles, packets and records. A command outside them is one that no agent can send. -/
namespace Sys2Proof

/-- A stored line: 64 bytes. -/
def lineWf (l : Line) : Bool := decide (l.bytes.length = 64)

/-- A tile: 4,096 bytes, a format code of 8 bits, at most 64 lines of valid bytes (R34, R35). -/
def tileWf (t : Tile) : Bool :=
  decide (t.data.length = 4096) && decide (t.info.format < 256) && decide (t.info.valid ≤ 4096)

/-- A packet: the header fields' widths and the payload's shape (R319). -/
def packetWf (p : Packet) : Bool :=
  decide (p.level < 16) && decide (p.type < 64) && decide (p.partition < 16) && decide (p.src < 2 ^ 32) &&
  decide (p.dst < 2 ^ 32) && decide (p.tag < 2 ^ 24) && decide (p.status < 256) && decide (p.address < 2 ^ 48) && decide (p.lines ≤ 64) &&
  decide (p.mapEpoch < 2 ^ 48) && decide (p.frag < 65536) && decide (p.seq < 2 ^ 32) && p.payload.all lineWf

/-- A DMP frame: the field widths of R442. -/
def frameWf (f : DmpFrame) : Bool :=
  decide (f.dst < 2 ^ 48) && decide (f.srcMac < 2 ^ 48) && decide (f.ethertype < 65536) && decide (f.version < 256) &&
  decide (f.client < 65536) && decide (f.seq < 2 ^ 32) && decide (f.index < 65536) && decide (f.sub < 256) && decide (f.size < 8) &&
  decide (f.value < 2 ^ 32)

/-- A PTP message: the field widths of R458. -/
def ptpWf (m : PtpMsg) : Bool := decide (m.domain < 256) && decide (m.source < 2 ^ 64) && decide (m.seq < 65536)

/-- A port of the paced schedule. -/
def portFormed : PacePort → Bool
  | .mp p => decide (p < 16)
  | _ => true

/-- The operand ranges of each command. -/
def wellFormed : Instr → Bool
  | .descriptorFetch q | .completionRecord q | .queueDrained q => decide (q < 64)
  | .writeDesc q pos line => decide (q < 64) && decide (pos < 2 ^ 32) && decide (line.length = 64)
  | .readCompl q pos => decide (q < 64) && decide (pos < 2 ^ 32)
  | .writeIndex q _ v => decide (q < 64) && decide (v < 2 ^ 32)
  | .qStateEnable _ q | .qStateDisable _ q => decide (q < 64)
  | .hmStateOn _ q | .hmStateOff _ q | .hmAdopt _ q | .wytheStateOn _ q | .wytheStateOff _ q => decide (q < 16)
  | .hmInitDone q | .rebuildBrick q | .mortarVerify q => decide (q < 16)
  | .memberCmd _ q r | .jobStart _ q r | .jobRejoin _ q r | .bgBcast _ q r => decide (q < 16) && decide (r.length ≤ 4096)
  | .jobControlReady _ q | .jobControlEnd _ q => decide (q < 16)
  | .bgReplace _ q v => decide (q < 16) && decide (v < 2 ^ 64)
  | .hodPrefetchFill k => decide (k < 32)
  | .selfTestDone gs b => gs.all (fun g => decide (g < 160)) && (match b with | some b => decide (b < 8) | none => true)
  | .dictWrite _ i u _ => decide (i < 65536) && decide (u < 256)
  | .winRead i u n o w => decide (i < 65536) && decide (u < 256) && decide (n < 65536) && decide (o < 2 ^ 32) && decide (w < 2 ^ 32)
  | .winWrite i u o n d w =>
      decide (i < 65536) && decide (u < 256) && decide (o < 2 ^ 32) && decide (n < 2 ^ 32) && decide (d.length ≤ 32) && decide (w < 2 ^ 32)
  | .winDescribe i u w => decide (i < 65536) && decide (u < 256) && decide (w < 2 ^ 32)
  | .readReq f | .writeExp f | .writeInit f | .segment f | .segRead f | .describe f => frameWf f
  | .load p | .store p | .flaggedStore p | .atomic p | .response p | .wyBrickState p | .wyBrickGradient p | .wyAck p
  | .wyResendReq p | .wyEncodeReq p | .wyEncodeRetry p | .wyLedger p | .wyFence p | .wyRepair p | .wyRepairReq p | .wyReady p
  | .rdxOpen p | .rdxSegment p | .rdxCredit p | .rdxAbandon p | .rdxNormPartial p | .heartbeat p | .hello p | .echo p
  | .echoReply p | .barrierArrive p | .barrierRelease p | .bcastData p | .bcastResume p | .bcastDone p => packetWf p
  | .sync m _ | .followUp m | .delayResp m => ptpWf m
  | .announce a => ptpWf a.msg && decide (a.steps < 65536)
  | .deltaResend q k _ _ => decide (q < 16) && decide (k < 2)
  | .encodeReqResend q _ _ | .versionRetry q _ _ => decide (q < 16)
  | .barrierCountdownExpiry q k => decide (q < 16) && decide (k < 4)
  | .mpResponse p _ | .mpTimeout p | .mpRefresh p _ => decide (p < 16)
  | .knownAnswerSlot g _ => decide (g < 160)
  | .watchdogTrip (.laneGroup g _) => decide (g < 160)
  | .watchdogTrip (.elsewhere st _) => decide (st < 32)
  | .regionSample mv ts => decide (mv.length = 16) && decide (ts.length = 16)
  | .supplyExcursion (.temperature r _) => decide (r < 16)
  | .supplyExcursion (.vddLogic _ _) | .supplyExcursion (.vddMem _ _) => true
  | .pacedRelease p _ _ o => (p :: o.after).all portFormed
  | .epInTile q tok _ t => decide (q < 64) && decide (tok < 2 ^ 32) && tileWf t
  | .tapInstruction (.preload c) => decide (c < 2 ^ 64)
  | .ijtagInstrument (.writeLine slot l bs) => decide (slot < 2 ^ 20) && decide (l < 64) && decide (bs.length = 64)
  | .ijtagInstrument (.writeSetting i u _) => decide (i < 65536) && decide (u < 256)
  | .peerSilent n => decide (n < 2 ^ 32)
  | _ => true

end Sys2Proof
end

