-- ==== Sys2Proof/Tests/Slice0.lean ====
section
/-! SUPPORT. Tests: what WellFormed refuses; for every statement with hypotheses a state and operands that meet them; and single steps whose
results the spec gives. -/
namespace Sys2Proof.Tests
open Sys2Proof Sys2Proof.Machine
set_option maxRecDepth 100000
set_option Elab.async false

/-- A descriptor of an opcode with every other field zero. -/
def desc (op : Nat) : Desc :=
  { opcode := op, hops := [], format := 0, outFormat := 0, cls := 0, part := 0, variance := false, transpose := false, fence := false, notify := false,
    src := 0, dst := 0, aux := 0, count := 0, arg := 0, deadline := 0, scalar := 0, token := 0, tensor := 0 }

/-- Its stream, accepted and at its beginning. -/
def strm (id : Nat) (d : Desc) : Stream :=
  { id := id, queue := 0, d := d, tokenZero := false, varied := false, taken := true, fenceWait := false, hold := 0, epoch := 0, acceptedNs := 0,
    finish := none, status := 0, detail := 0, tilesDone := 0, poison := false, inbox := [], nextIn := 0, pos := 0, pending := [], fetched := [],
    asked := [], unacked := 0, text := [], ordinal := 0, mark := 0, closing := false, stallRaised := false, degraded := [] }

/-- A block out of reset with some registers off their defaults. -/
def out (l : List (Nat × Nat)) : State :=
  { State.reset with regs := l, pins := { State.reset.pins with resetn := true, fpUp := true, safeT := false, safeC := true } }

/-- A block whose stations work. -/
def up (l : List (Nat × Nat)) : State :=
  { out (l ++ [(K.START_STAGE, 5), (K.SAFE_STATE, 1), (K.ALIGN_DONE, 1), (K.ALIGN_STATUS, 2 ^ 19 - 1)]) with mason := { image := [], diag := false, bare := false } }

/-- A state with these streams. -/
def withStreams (s : State) (l : List Stream) : State :=
  { s with tracker := { streams := l, nextId := 100, nextFinish := 0, heads := [] } }

/-- Bytes of tiles laid in yard slots. -/
def yardOf (l : List (Nat × Tile)) : Memory :=
  l.foldl (fun m e => putBytes (putBytes m (yardAddr e.1 0) e.2.data) (yardMetaAddr e.1 + yardMetaOff e.1) (metaBytes e.2.info)) State.reset.mem

/-- A state with tiles in yard slots. -/
def withYard (s : State) (l : List (Nat × Tile)) : State := { s with mem := yardOf l }

/-- A state whose partition 0 maps the names from 0 on to these entries. -/
def withHomes (s : State) (l : List Nat) : State :=
  { s with regs := (K.HM_STATE 0, 1) :: (K.HM_NAMES 0, 4096) :: (K.HM_FIRST 0, 0) :: (K.HM_COPY_B 0, 2 ^ 44) :: s.regs,
           homes := { s.homes with entries := (List.range l.length).map (fun i => (i, (l[i]?).getD 3)) } }

/-- The zero tile of a format, its CRC written out. -/
def zt (f : Nat) : Tile := { data := zeros 4096, info := { crc := 0x98F94189, format := f, transposed := false, valid := elemCount f, poison := 0 } }
theorem zt_crc : crc32c (zeros 4096) = 0x98F94189 := by decide +kernel
theorem zt_sound (f : Nat) (h : f < 16) : SoundTile (zt f) :=
  ⟨by simp [zt, zeros], h, by unfold zt elemCount; dsimp only; split <;> decide, rfl, zt_crc⟩

/-- The metadata bytes of a zero tile of format 0 or 1 at an address, the zeros not listed. -/
def cells0 (a : Nat) : List Host.Cell := [(a, 137), (a + 1, 65), (a + 2, 249), (a + 3, 152), (a + 6, 16)]
def cells1 (a : Nat) : List Host.Cell := [(a, 137), (a + 1, 65), (a + 2, 249), (a + 3, 152), (a + 4, 1), (a + 6, 4)]
/-- A memory with zero tiles of format 0 in slots 5 and 6 and of format 1 in slots 8 and 9 and 32 to 47. -/
def mem0 : Memory :=
  { cells := cells0 2139095120 ++ cells0 2139095136 ++ cells1 2139095168 ++ cells1 2139095184 ++
      (List.range 16).flatMap (fun i => cells1 (2139095552 + 16 * i)), marks := [], gen := 0 }
theorem mem0_low (a : Nat) (h : a < 2139095040) : readByte mem0 a = 0 := by
  have hn : smapGet mem0.cells a = none := smapGet_none (fun e he => by
    have : ∀ e ∈ mem0.cells, 2139095040 ≤ e.1 := by decide
    have := this e he
    omega)
  have hs : a < stackBase := by unfold stackBase; omega
  unfold readByte; rw [hn]; unfold unlistedByte; rw [if_pos hs]
theorem mem0_bytes (k : Nat) (h : k < 522240) : readBytes mem0 (yardAddr k 0) 4096 = zeros 4096 := by
  unfold readBytes zeros
  rw [List.eq_replicate_iff]
  refine ⟨by simp, fun b hb => ?_⟩
  obtain ⟨i, hi, rfl⟩ := List.mem_map.mp hb
  rw [List.mem_range] at hi
  exact mem0_low _ (by unfold yardAddr; omega)
/-- A slot of a state with that memory holds a zero tile whole where its metadata says so. -/
theorem yard0 (s : State) (hm : s.mem = mem0) (k f : Nat) (h : k < 522240)
    (hi : (zt f).info = metaOf (readBytes mem0 (yardMetaAddr k + yardMetaOff k) 16)) : YardTile s k (zt f) := by
  have mark : ∀ a, a < stackBase → markOf mem0 a = 0 := fun a ha => by
    show (match smapGet ([] : SMap Word32) (a / 64) with | some w => w | none => if a < stackBase then 0 else Config.freeStackMark 0 (a / 64)) = 0
    simp [smapGet, ha]
  unfold YardTile WholeTile
  rw [hm]
  exact ⟨(mem0_bytes k h).symm, hi, rfl, zt_crc, fun j _ => mark _ (by unfold yardAddr stackBase; omega),
    mark _ (by unfold yardMetaAddr stackBase; omega)⟩
theorem yard5 (s : State) (hm : s.mem = mem0) : YardTile s 5 (zt 0) := yard0 s hm 5 0 (by decide) (by decide)
theorem yard6 (s : State) (hm : s.mem = mem0) : YardTile s 6 (zt 0) := yard0 s hm 6 0 (by decide) (by decide)
theorem yard8 (s : State) (hm : s.mem = mem0) : YardTile s 8 (zt 1) := yard0 s hm 8 1 (by decide) (by decide)
theorem yard9 (s : State) (hm : s.mem = mem0) : YardTile s 9 (zt 1) := yard0 s hm 9 1 (by decide) (by decide)

theorem smapGet_run {α : Type} (b : Nat) (f : Nat → α) (l : List Nat) (i : Nat) (h : i ∈ l) : smapGet (l.map (fun j => (b + j, f j))) (b + i) = some (f i) := by
  induction l with
  | nil => simp at h
  | cons j t ih =>
    by_cases hj : j = i
    · subst hj; simp [smapGet]
    · have : b + j ≠ b + i := by omega
      have hm : i ∈ t := by simpa [Ne.symm hj] using h
      simp only [List.map_cons, smapGet, if_neg this]
      exact ih hm

/-- The byte `i` of a stack with 64 zero tiles from offset 0 and their metadata lines from tile 64 on. -/
def stackByte (i : Nat) : Byte := if i < 262144 then 0 else ((metaBytes (zt 0).info)[i % 64]?).getD 0
/-- Stack 0 from its first byte: `n` bytes, and the marks of `k` lines. -/
def stackRun (n k : Nat) : Memory :=
  { cells := (List.range n).map (fun i => (stackBase + i, stackByte i)), marks := (List.range k).map (fun i => (stackBase / 64 + i, 0)), gen := 0 }
theorem run_byte (n k i : Nat) (h : i < n) : readByte (stackRun n k) (stackBase + i) = stackByte i := by
  have hg : smapGet (stackRun n k).cells (stackBase + i) = some (stackByte i) := smapGet_run stackBase stackByte (List.range n) i (List.mem_range.mpr h)
  unfold readByte; rw [hg]
theorem run_mark (n k a : Nat) (h : stackBase ≤ a) (h2 : a < stackBase + 64 * k) : markOf (stackRun n k) a = 0 := by
  have e : a / 64 = stackBase / 64 + (a - stackBase) / 64 := by unfold stackBase at *; omega
  have hg : smapGet (stackRun n k).marks (stackBase / 64 + (a - stackBase) / 64) = some 0 :=
    smapGet_run (stackBase / 64) (fun _ => (0 : Word32)) (List.range k) ((a - stackBase) / 64) (List.mem_range.mpr (by omega))
  unfold markOf; rw [e, hg]
/-- A memory in which stack 0 holds 64 zero tiles of format 0, at offsets 0 to 63. -/
def mem1 : Memory := stackRun 266240 4160
theorem mem1_byte (i : Nat) (h : i < 266240) : readByte mem1 (stackBase + i) = stackByte i := run_byte _ _ i h
theorem mem1_mark (a : Nat) (h : stackBase ≤ a) (h2 : a < stackBase + 266240) : markOf mem1 a = 0 := run_mark _ _ a h h2
theorem stack1 (s : State) (hm : s.mem = mem1) (hb : reg s (K.MP_META_BASE 0) = 64) (o : Nat) (ho : o < 64) : StackTile s 0 o (zt 0) := by
  have hd : readBytes mem1 (mpAddr (mpTile 0 o 0)) 4096 = zeros 4096 := by
    unfold readBytes zeros
    rw [List.eq_replicate_iff]
    refine ⟨by simp, fun b hb => ?_⟩
    obtain ⟨i, hi, rfl⟩ := List.mem_map.mp hb
    rw [List.mem_range] at hi
    have ha : mpAddr (mpTile 0 o 0) + i = stackBase + (o * 4096 + i) := by unfold mpAddr mpTile; omega
    rw [ha, mem1_byte _ (by omega)]
    unfold stackByte; rw [if_pos (by omega)]
  have ma : metaLineAddr s 0 o = stackBase + (262144 + o * 64) := by unfold metaLineAddr mpAddr; omega
  have hi : (zt 0).info = metaOf (readBytes mem1 (metaLineAddr s 0 o + 0) 16) := by
    have : readBytes mem1 (metaLineAddr s 0 o + 0) 16 = (List.range 16).map (fun i => ((metaBytes (zt 0).info)[i]?).getD 0) := by
      unfold readBytes
      refine List.map_congr_left fun i hi => ?_
      rw [List.mem_range] at hi
      rw [ma, Nat.add_zero, Nat.add_assoc, mem1_byte _ (by omega)]
      unfold stackByte; rw [if_neg (by omega)]
      have : (262144 + o * 64 + i) % 64 = i := by omega
      rw [this]
    rw [this]; decide
  unfold StackTile WholeTile
  rw [hm]
  refine ⟨hd.symm, hi, rfl, zt_crc, fun j hj => mem1_mark _ ?_ ?_, mem1_mark _ ?_ ?_⟩
  · unfold mpAddr; omega
  · unfold mpAddr mpTile; omega
  · rw [ma]; omega
  · rw [ma]; omega

theorem readsY (s : State) (q name k f : Nat) (hw : isWbName s q name = false) (hc : codedCourse s q name = none) (hg : gradCourse s q name = none)
    (hh : homeOf s q name = .yard k) (hy : YardTile s k (zt f)) : ReadsYard s q name (zt f) :=
  ⟨hw, hc, fun c h => (by rw [hg] at h; cases h), k, hh, hy⟩
/-- A working block with a stream, and names 0 to 9 of partition 0 homed in slots 5, 6, 8, 9 and 20 to 25. -/
def shelf (l : List (Nat × Nat)) (x : Stream) : State :=
  { withStreams (withHomes (up l) ([5, 6, 8, 9, 20, 21, 22, 23, 24, 25].map (fun k => k * 65536))) [x] with mem := mem0 }

/-- A slot that alone was written holds its tile whole. -/
theorem yardPut (s : State) (k : Nat) (v : Tile) (hm : s.mem = yardOf [(k, v)]) (hk : k < 522240) (hl : v.data.length = 4096)
    (hp : v.info.poison = 0) (hi : metaOf (metaBytes v.info) = v.info) (hc : crc32c v.data = v.info.crc.toNat) : YardTile s k v := by
  have hb : (metaBytes v.info).length = 16 := rfl
  have lt : ∀ i, i < 4096 → yardAddr k 0 + i < yardMetaAddr k + yardMetaOff k := fun i hi => by unfold yardAddr yardMetaAddr yardMetaOff; omega
  have hd : readBytes s.mem (yardAddr k 0) 4096 = v.data := by
    unfold readBytes
    refine List.ext_getElem (by simp [hl]) fun i h1 h2 => ?_
    simp only [List.getElem_map, List.getElem_range]
    rw [hm]
    simp only [yardOf, List.foldl_cons, List.foldl_nil]
    rw [readByte_putBytes_out _ _ _ _ (.inl (lt i (by omega))), readByte_putBytes_in _ _ _ i h2]
  have hx : readBytes s.mem (yardMetaAddr k + yardMetaOff k) 16 = metaBytes v.info := by
    unfold readBytes
    refine List.ext_getElem (by simp [hb]) fun i h1 h2 => ?_
    simp only [List.getElem_map, List.getElem_range]
    rw [hm]
    simp only [yardOf, List.foldl_cons, List.foldl_nil]
    rw [readByte_putBytes_in _ _ _ i h2]
  have mark : ∀ a, a < stackBase → markOf s.mem a = 0 := fun a ha => by
    rw [hm]
    show (match smapGet ([] : SMap Word32) (a / 64) with | some w => w | none => if a < stackBase then 0 else Config.freeStackMark 0 (a / 64)) = 0
    simp [smapGet, ha]
  unfold YardTile WholeTile
  exact ⟨hd.symm, by rw [hx]; exact hi.symm, hp, hc, fun j _ => mark _ (by unfold yardAddr stackBase; omega), mark _ (by unfold yardMetaAddr stackBase; omega)⟩
/-- A tile of format 0 whose first bytes are `b` and whose CRC is `c`. -/
def dataTile (b : List Byte) (c : Word32) : Tile :=
  { data := b ++ zeros (4096 - b.length), info := { crc := c, format := 0, transposed := false, valid := 4096, poison := 0 } }


/-! Ill-formed commands, one for each check of WellFormed. -/
theorem test_wf_queue : wellFormed (.descriptorFetch 64) = false ∧ wellFormed (.descriptorFetch 63) = true := by decide
theorem test_wf_writeDesc : wellFormed (.writeDesc 0 0 [1]) = false ∧ wellFormed (.writeDesc 0 (2 ^ 32) (zeros 64)) = false ∧
    wellFormed (.writeDesc 64 0 (zeros 64)) = false ∧ wellFormed (.writeDesc 0 0 (zeros 64)) = true := by decide
theorem test_wf_readCompl : wellFormed (.readCompl 0 (2 ^ 32)) = false ∧ wellFormed (.readCompl 64 0) = false := by decide
theorem test_wf_writeIndex : wellFormed (.writeIndex 0 true (2 ^ 32)) = false ∧ wellFormed (.writeIndex 64 true 0) = false := by decide
theorem test_wf_qState : wellFormed (.qStateEnable .dmp 64) = false ∧ wellFormed (.qStateDisable .dmp 64) = false := by decide
theorem test_wf_partition : wellFormed (.hmStateOn .dmp 16) = false ∧ wellFormed (.hmStateOff .dmp 16) = false ∧ wellFormed (.hmAdopt .dmp 16) = false ∧
    wellFormed (.wytheStateOn .dmp 16) = false ∧ wellFormed (.wytheStateOff .dmp 16) = false ∧ wellFormed (.hmInitDone 16) = false ∧
    wellFormed (.rebuildBrick 16) = false ∧ wellFormed (.mortarVerify 16) = false ∧ wellFormed (.jobControlReady .dmp 16) = false ∧
    wellFormed (.jobControlEnd .dmp 16) = false := by decide
theorem test_wf_record : wellFormed (.memberCmd .dmp 16 []) = false ∧ wellFormed (.jobStart .dmp 0 (zeros 4097)) = false ∧
    wellFormed (.jobRejoin .dmp 16 []) = false ∧ wellFormed (.bgBcast .dmp 16 []) = false := by decide +kernel
theorem test_wf_bgReplace : wellFormed (.bgReplace .dmp 16 0) = false ∧ wellFormed (.bgReplace .dmp 0 (2 ^ 64)) = false := by decide
theorem test_wf_hodPrefetch : wellFormed (.hodPrefetchFill 32) = false := by decide
theorem test_wf_selfTest : wellFormed (.selfTestDone [160] none) = false ∧ wellFormed (.selfTestDone [] (some 8)) = false := by decide
theorem test_wf_dictWrite : wellFormed (.dictWrite .dmp 65536 0 []) = false ∧ wellFormed (.dictWrite .dmp 0 256 []) = false := by decide
theorem test_wf_window : wellFormed (.winRead 65536 0 0 0 0) = false ∧ wellFormed (.winWrite 0 0 0 0 (zeros 33) 0) = false ∧
    wellFormed (.winDescribe 0 256 0) = false := by decide
/-- A frame with every field zero. -/
def frame0 : DmpFrame :=
  { port := .mga, dst := 0, srcMac := 0, ethertype := 0, vlan := none, version := 0, client := 0, seq := 0, index := 0, sub := 0, size := 0,
    last := false, value := 0, data := [] }
theorem test_wf_frame : wellFormed (.readReq { frame0 with client := 65536 }) = false ∧ wellFormed (.writeExp { frame0 with size := 8 }) = false ∧
    wellFormed (.describe { frame0 with value := 2 ^ 32 }) = false ∧ wellFormed (.segment frame0) = true := by decide
theorem test_wf_packet : wellFormed (.load { pkt0 with tag := 2 ^ 24 }) = false ∧ wellFormed (.wyAck { pkt0 with lines := 65 }) = false ∧
    wellFormed (.bcastData { pkt0 with payload := [{ bytes := [], mark := 0 }] }) = false ∧ wellFormed (.hello pkt0) = true := by decide
/-- A PTP message with every field zero. -/
def ptp0 : PtpMsg := { port := .mga, domain := 0, source := 0, seq := 0, time := 0 }
theorem test_wf_ptp : wellFormed (.sync { ptp0 with domain := 256 } false) = false ∧ wellFormed (.followUp { ptp0 with seq := 65536 }) = false ∧
    wellFormed (.delayResp { ptp0 with source := 2 ^ 64 }) = false := by decide
/-- An Announce message of its fields. -/
def ann (m : PtpMsg) (steps : Nat) : Announce :=
  { msg := m, priority1 := 0, clockClass := 0, accuracy := 0, variance := 0, priority2 := 0, grandmaster := 0, steps := steps, interval := 0 }
theorem test_wf_announce : wellFormed (.announce (ann ptp0 65536)) = false ∧ wellFormed (.announce (ann { ptp0 with domain := 256 } 0)) = false := by decide
theorem test_wf_resend : wellFormed (.deltaResend 0 2 0 0) = false ∧ wellFormed (.encodeReqResend 16 0 0) = false ∧
    wellFormed (.versionRetry 16 0 0) = false ∧ wellFormed (.barrierCountdownExpiry 0 4) = false := by decide
theorem test_wf_port : wellFormed (.mpResponse 16 ⟨true, 0, 0⟩) = false ∧ wellFormed (.mpTimeout 16) = false ∧ wellFormed (.mpRefresh 16 true) = false ∧
    wellFormed (.pacedRelease (.mp 16) 0 0 ⟨1, []⟩) = false ∧ wellFormed (.pacedRelease .ep 0 0 ⟨1, [.mp 16]⟩) = false := by decide
theorem test_wf_group : wellFormed (.knownAnswerSlot 160 true) = false ∧ wellFormed (.watchdogTrip (.laneGroup 160 false)) = false ∧
    wellFormed (.watchdogTrip (.elsewhere 32 0)) = false := by decide
theorem test_wf_region : wellFormed (.regionSample [] []) = false ∧ wellFormed (.supplyExcursion (.temperature 16 0)) = false := by decide
theorem test_wf_tile : wellFormed (.epInTile 0 0 0 { data := [], info := metaOf [] }) = false ∧ wellFormed (.epInTile 64 0 0 (zeroTile 1)) = false := by
  decide +kernel
theorem test_wf_tap : wellFormed (.tapInstruction (.preload (2 ^ 64))) = false ∧ wellFormed (.ijtagInstrument (.writeLine (2 ^ 20) 0 (zeros 64))) = false ∧
    wellFormed (.ijtagInstrument (.writeLine 0 64 (zeros 64))) = false ∧ wellFormed (.ijtagInstrument (.writeSetting 65536 0 0)) = false := by decide
theorem test_wf_peer : wellFormed (.peerSilent (2 ^ 32)) = false := by decide

/-! No row of the table has bits. -/
theorem test_decode_none : decodeTableWord 32 0 = none ∧ State.reset.withFetchWord 32 7 = State.reset := ⟨rfl, rfl⟩

/-! Witnesses of the hypotheses: the machine, start-up. -/
theorem test_witness_EmptyQueueTick : (State.reset.pending = [] ∧ alive State.reset = false) ∧
    ((out []).pending = [] ∧ alive (out []) = true ∧ (working (out []) = true → NothingRetried (out []))) ∧
    (alive (up []) = true ∧ working (up []) = true ∧ NothingRetried (up [])) := by decide
theorem test_witness_HeldCommandsDoNothing : (alive State.reset = false ∧ actsInReset .heartbeatTick = false) ∧
    (alive (out []) = true ∧ working (out []) = false ∧ stationCommand (.nop 0) = true) := by decide
theorem test_witness_ResetStateStands : ∃ s t : State, (alive s = false → AtReset s) ∧ step s = .next t ∧ alive t = false :=
  ⟨State.reset, State.reset, fun _ => ⟨rfl, rfl, rfl, rfl⟩, rfl, rfl⟩
theorem test_witness_SafeStateLasts : ∃ s t : State, alive s = true ∧ reg s K.SAFE_STATE = 2 ∧ step s = .next t ∧ alive t = true :=
  ⟨{ out [(K.SAFE_STATE, 2)] with pending := [.nop 0] }, out [(K.SAFE_STATE, 2)], by decide, by decide, rfl, by decide⟩
theorem test_witness_PowerAndReset : (out []).pins.powered = true ∧ State.reset.pins.powered = true ∧ State.reset.pins.resetn = false := by decide
theorem test_witness_StartUpSequence :
    (let s := out [(K.ALIGN_DONE, 1), (K.START_STAGE, 1)]
     alive s = true ∧ reg s K.ALIGN_DONE = 1 ∧ reg s K.START_STAGE = 1 ∧ reg s K.SAFE_STATE = 0) ∧
    (let s := out [(K.START_STAGE, 2), (K.FW_STATUS, 1)]
     alive s = true ∧ dictUp s .dmp = true ∧ s.mason.bare = true ∧ s.mason.diag = false ∧ reg s K.FW_STATUS = 1 ∧ reg s K.SAFE_STATE = 0) ∧
    (let s := out [(K.START_STAGE, 3), (K.FW_STATUS, 2)]
     alive s = true ∧ s.mason.bare = true ∧ reg s K.FW_STATUS = 2 ∧ reg s K.SAFE_STATE = 0 ∧
       imageRefused s.mason.image (reg s K.REVISION) true ≠ 0) ∧
    (let s := out [(K.START_STAGE, 4)]
     alive s = true ∧ reg s K.START_STAGE = 4 ∧ reg s K.SAFE_STATE = 0) := by decide
theorem test_witness_PartitionsStayInRange : ∃ s t : State, PartsBounded s ∧ s.tracker.streams ≠ [] ∧ step s = .next t :=
  ⟨{ withStreams (out []) [strm 1 { desc 0 with part := 15 }] with pending := [.nop 0] }, withStreams (out []) [strm 1 { desc 0 with part := 15 }],
   by decide, by decide, rfl⟩

/-! Witnesses: queues. -/
/-- A working block whose queue 0, in state `st`, has its rings in yard slots 0 and 1, named 0 and 1. -/
def rings (st : Nat) (l : List (Nat × Nat)) : State :=
  withHomes (up (l ++ [(K.Q_STATE 0, st), (K.DQ_SIZE 0, 64), (K.CQ_SIZE 0, 256), (K.DQ_BASE 0, 0), (K.CQ_BASE 0, 1), (K.ALIGN_DONE, 1)])) [0, 65536]
/-- The block with bytes at the front of its descriptor ring. -/
def ringed (b : List Byte) : State :=
  { rings 1 [(K.DQ_PRODUCER 0, 1)] with mem := putBytes State.reset.mem (yardAddr 0 0) b }

theorem test_witness_QueuesSetAndRead :
    (alive (out []) = true ∧ epOpen (out []) = false) ∧
    (let s := rings 1 []
     alive s = true ∧ epOpen s = true ∧ working s = true ∧ reg s (K.Q_STATE 0) ≠ 0 ∧ reg s K.FLIP_STATE ≠ 1 ∧
       slotOf s (qPart 0) (reg s (K.DQ_BASE 0) % 2 ^ 48 + 63 % max 1 (reg s (K.DQ_SIZE 0)) / 64) = some 0) ∧
    (reg (rings 0 []) (K.Q_STATE 0) = 0 ∧ reg (rings 1 []) (K.Q_STATE 1) = 0 ∧ slotOf (up []) (qPart 0) 0 = none ∧ epOpen (rings 0 []) = true ∧
       epOpen (up []) = true ∧ epOpen { up [(K.SAFE_STATE, 2)] with chan := .none } = true ∧ working (up [(K.SAFE_STATE, 2)]) = false) ∧
    (let s := rings 1 []
     255 < reg s (K.CQ_SIZE 0) ∧ structBytes s (qPart 0) (reg s (K.CQ_BASE 0) % 2 ^ 48) (255 * 16) 16 = some (zeros 16) ∧
       reg s (K.CQ_SIZE 0) ≤ 256 ∧ structBytes (up []) (qPart 0) 0 0 16 = none) ∧
    (let s := rings 0 []
     Writable s .dmp (0x2010 + 0) 9 1 ∧ reg s (K.Q_STATE 0) = 0 ∧ yardHomed s (qPart 0) (reg s (K.DQ_BASE 0) % 2 ^ 48) 1 = true ∧
       ceilDiv (min (reg s (K.DQ_SIZE 0)) 65536) 64 = 1 ∧ ceilDiv (min (reg s (K.CQ_SIZE 0)) 65536) 256 = 1 ∧
       yardHomed s (qPart 0) (reg s (K.CQ_BASE 0) % 2 ^ 48) 1 = true ∧ isPow2 (reg s (K.DQ_SIZE 0)) = true ∧ isPow2 (reg s (K.CQ_SIZE 0)) = true) ∧
    (let s := rings 1 []
     Writable s .dmp (0x2010 + 0) 9 1 ∧ reg s (K.Q_STATE 0) ≠ 0) ∧
    (let s := rings 0 [(K.DQ_SIZE 0, 63)]
     Writable s .dmp (0x2010 + 0) 9 1 ∧ reg s (K.Q_STATE 0) = 0 ∧ isPow2 (reg s (K.DQ_SIZE 0)) = false ∧ yardHomed s (qPart 0) 0 1 = true) ∧
    (let s := rings 3 []
     working s = true ∧ reg s (K.Q_STATE 0) = 3 ∧ reg s (K.Q_STATE 0) ≠ 1 ∧ s.tracker.streams.any (fun x => decide (x.queue = 0)) = false) := by decide +kernel
theorem test_witness_DescriptorFetched :
    (let s := ringed (zeros 64)
     working s = true ∧ epOpen s = true ∧ headReady s 0 = true ∧ headFirst s 0 = true ∧ smapGet s.tracker.heads 0 = none ∧ headBytes s 0 = some (zeros 64) ∧
       NumbersFresh s ∧ descRefuses (passHead (headVersion s 0).1 0) 0 (descOf (zeros 64)) = none ∧ (descOf (zeros 64)).opcode < 0x40) ∧
    (let s := ringed (127 :: zeros 63)
     working s = true ∧ epOpen s = true ∧ headReady s 0 = true ∧ headFirst s 0 = true ∧ smapGet s.tracker.heads 0 = none ∧ headBytes s 0 = some (127 :: zeros 63) ∧
       NumbersFresh s ∧ (descRefuses (passHead (headVersion s 0).1 0) 0 (descOf (127 :: zeros 63))).isSome = true) := by decide +kernel
theorem test_witness_QueueCommands :
    (let x := strm 7 (desc 0)
     Runs (withStreams (up []) [x]) 7 0x00 x) ∧
    (let x := { strm 7 (desc 0) with fenceWait := true }
     let s := withStreams (up []) [x]
     working s = true ∧ findStream s 7 = some x ∧ x.taken = true ∧ s.tracker.streams.all (fun y => !decide (y.queue = x.queue ∧ y.id < x.id)) = true) ∧
    (let x := { strm 7 (desc 0) with fenceWait := true }
     let s := withStreams (up []) [strm 6 (desc 0), x]
     findStream s 7 = some x ∧ s.tracker.streams.any (fun y => decide (y.queue = x.queue ∧ y.id < x.id)) = true) ∧
    (let x := strm 7 (desc 0x0F)
     Runs (withStreams (up []) [x]) 7 0x0F x ∧ x.asked = []) ∧
    (let x := { strm 7 (desc 0x0F) with asked := [2, 4] }
     Runs (withStreams (up []) [x]) 7 0x0F x ∧ x.asked ≠ [] ∧ x.asked.all (fun m => decide (m % 2 = 0)) = true) ∧
    (let x := { strm 7 (desc 0x0F) with asked := [13] }
     let y := strm 6 (desc 0x01)
     let s := withStreams (up []) [y, x]
     Runs s 7 0x0F x ∧ y.id ≠ 7 ∧ x.asked = [2 * y.id + 1] ∧ findStream s y.id = some y ∧ y.finish = none ∧ y.closing = false ∧
       y.d.opcode < 0x20 ∧ (∀ r ∈ s.rdx.runs, r.sid ≠ y.id)) ∧
    (let x := { strm 7 (desc 0x0F) with asked := [13] }
     let y := { strm 6 (desc 0x01) with finish := some 0 }
     let s := withStreams (up []) [y, x]
     Runs s 7 0x0F x ∧ y.id ≠ 7 ∧ x.asked = [2 * y.id + 1] ∧ findStream s y.id = some y ∧ y.finish.isSome = true) := by decide +kernel
theorem test_witness_RecordWritten :
    (let x := { strm 7 (desc 0) with finish := some 0 }
     let s := withStreams (rings 1 []) [x]
     working s = true ∧ firstFinished s 0 = some x ∧ x.d.opcode ≠ 0x0F ∧ cqFree s 0 = true ∧ reg s K.FLIP_STATE ≠ 1 ∧ x.status ≠ 1 ∧
       slotOf s (qPart 0) (reg s (K.CQ_BASE 0) % 2 ^ 48 + reg s (K.CQ_PRODUCER 0) % max 1 (reg s (K.CQ_SIZE 0)) / 256) = some 1) ∧
    (let x := { strm 7 (desc 0) with finish := some 0 }
     let s := withStreams (rings 1 [(K.CQ_PRODUCER 0, 256)]) [x]
     working s = true ∧ firstFinished s 0 = some x ∧ cqFree s 0 = false) := by decide +kernel
theorem test_witness_StreamThroughEp :
    let x := { strm 7 { desc 0x01 with hops := [1, 1, 0, 0, 0, 0], count := 1 } with inbox := [zt 0] }
    Runs (withStreams (up []) [x]) 7 0x01 x ∧ routeOf x.d = [stEP, stEP] ∧ x.d.format = x.d.outFormat ∧ x.pos = 0 ∧ x.tilesDone = 0 ∧
      x.inbox.length = x.d.count ∧ (∀ t ∈ x.inbox, t.info.poison = 0) := by decide +kernel

/-! Witnesses: homes and the write-back cache. -/
/-- A working block with ports 0 and 1 online and a home map of partition 0 in their stacks. -/
def homed (l : List (Nat × Nat)) (es : List Nat) : State :=
  let s := withHomes (up (l ++ [(K.MP_STATE 0, 1), (K.MP_STATE 1, 1), (K.ALIGN_STATUS, 6), (K.MP_TILE_LIMIT 0, 1000), (K.MP_TILE_LIMIT 1, 1000),
    (K.MP_META_BASE 0, 1000), (K.MP_META_BASE 1, 1000)])) es
  { s with homes := { s.homes with inits := [(0, 2 ^ 41), (2 ^ 41, 2 ^ 42)] } }
/-- A homing descriptor. -/
def hom (op arg count : Nat) : Desc := { desc op with arg := arg, count := count }
theorem test_witness_HomesBound :
    (let x := strm 7 (hom 0x10 1 1)
     let s := withStreams (homed [] [3]) [x]
     AtStart x ∧ hasWythe s x.d.part = false ∧ homReject s x = none ∧ (∀ i, i < x.d.count → hmCovers s x.d.part (x.d.src + i) = true) ∧
       MapWrites s x.d.part (rangeFrom x.d.src x.d.count) ∧ MapReads s x.d.part (rangeFrom x.d.src x.d.count) ∧ Runs s 7 0x10 x ∧ (x.d.arg % 4 = 1 ∨ x.d.arg % 4 = 2) ∧
       x.d.scalar % 2 ^ 40 + x.d.count ≤ 2 ^ 40 ∧ (∀ i, i < x.d.count → entryOf s x.d.part (x.d.src + i) = 3)) ∧
    (let x := strm 7 (hom 0x10 0 1)
     let s := withStreams (homed [] [3]) [x]
     AtStart x ∧ homReject s x = none ∧ hmCovers s 0 0 = true ∧ MapWrites s x.d.part (rangeFrom x.d.src x.d.count) ∧ MapReads s x.d.part (rangeFrom x.d.src x.d.count) ∧ Runs s 7 0x10 x ∧
       x.d.arg % 4 = 0 ∧ x.d.count = 1 ∧ entryOf s x.d.part x.d.src = 3 ∧ allocSlots s 1 = [0] ∧ x.d.format < 16 ∧ reg s K.FLIP_STATE ≠ 1) ∧
    (let x := strm 7 (hom 0x11 0 1)
     let s := withStreams (homed [] [1]) [x]
     AtStart x ∧ homReject s x = none ∧ hmCovers s 0 0 = true ∧ MapWrites s x.d.part (rangeFrom x.d.src x.d.count) ∧ MapReads s x.d.part (rangeFrom x.d.src x.d.count) ∧ Runs s 7 0x11 x ∧
       (∀ i, i < x.d.count → movingElsewhere s x (x.d.src + i) = false)) :=
  ⟨by decide +kernel, by decide +kernel, by decide +kernel⟩
/-- A block that moves name 0 from slot 5 to port 0. -/
def moving : State := { withStreams (homed [] [5 * 65536]) [strm 7 (hom 0x12 1 1)] with mem := mem0 }
theorem test_witness_TileMoved :
    (let x := strm 7 (hom 0x12 1 1)
     let s := moving
     Runs s 7 0x12 x ∧ AtStart x ∧ hasWythe s x.d.part = false ∧ homReject s x = none ∧ x.d.count = 1 ∧ x.d.arg % 4 = 1 ∧ MapWrites s x.d.part [x.d.src] ∧
      smapHas s.homes.awayOut (x.d.part * 2 ^ 48 + x.d.src) = false ∧
      PortServes s (bits x.d.arg 5 2) ∧ movingElsewhere s x x.d.src = false ∧ homeOf s x.d.part x.d.src = .yard 5 ∧
      reg s K.FLIP_STATE ≠ 1 ∧
      metaLineAddr s (bits x.d.arg 5 2) (x.d.scalar % 2 ^ 40) / 4096 ≠ mpAddr (mpTile (bits x.d.arg 5 2) (x.d.scalar % 2 ^ 40) 0) / 4096) ∧
    YardTile moving 5 (zt 0) := ⟨by decide +kernel, yard5 _ rfl⟩
theorem test_witness_HomesBound_read :
    let x := strm 7 { hom 0x13 0 512 with dst := 1 }
    let s := withStreams (homed [] [3, 65536]) [x]
    Runs s 7 0x13 x ∧ AtStart x ∧ homReject s x = none ∧ 0 < x.d.count ∧ x.d.count ≤ 512 ∧ MapReads s x.d.part (rangeFrom x.d.src x.d.count) ∧
      isWbName s x.d.part x.d.dst = false ∧ homeOf s x.d.part x.d.dst = .yard 1 ∧ inMotion s.tracker.streams x.d.part x.d.dst = false ∧
      reg s K.FLIP_STATE ≠ 1 := by decide +kernel
/-- A working block that caches name 0 of partition 0, dirty, in slot 5. -/
def cached (x : Stream) : State :=
  { withStreams (homed [(K.WB_FIRST 0, 0), (K.WB_NAMES 0, 4), (K.WB_SLOTS 0, 4), (K.HM_NAMES 0, 0)] []) [x] with
    mem := mem0, wb := [{ part := 0, name := 0, slot := 5, dirty := true, used := 0 }] }
theorem test_witness_WriteBackCache :
    (∀ op ∈ [0x18, 0x19, 0x1A],
      let x := { strm 7 (hom op 0 1) with asked := [0] }
      let s := cached x
      let p := wbPhys s x.d.part x.d.src / 2 ^ 44
      let o := wbPhys s x.d.part x.d.src % 2 ^ 44 / 4096
      x.d.count = 1 ∧ isWbName s x.d.part x.d.src = true ∧ wbFind s x.d.part x.d.src = some { part := 0, name := 0, slot := 5, dirty := true, used := 0 } ∧
        x.d.src ∈ x.asked ∧ Runs s 7 op x ∧ PortServes s p ∧ reg s K.FLIP_STATE ≠ 1 ∧ metaLineAddr s p o / 4096 ≠ mpAddr (mpTile p o 0) / 4096) ∧
    (let x := strm 7 (hom 0x18 0 1)
     Runs (cached x) 7 0x18 x ∧ x.d.src ∉ x.asked) ∧
    (∀ x, YardTile (cached x) 5 (zt 0)) ∧
    (∀ op ∈ [0x18, 0x19, 0x1A],
      let x := strm 7 { hom op 0 1 with src := 4 }
      let s := cached x
      0 < x.d.count ∧ isWbName s x.d.part x.d.src = false ∧ Runs s 7 op x) :=
  ⟨by decide +kernel, by decide +kernel, fun _ => yard5 _ rfl, by decide +kernel⟩

/-! Witnesses: the hod, statistics and digests. -/
/-- A hod stack of partition 0. -/
def stk (recs : List HodRec) (segs : List Seg) (drain : Bool) (st : Option Nat) : HodStack :=
  { num := 0, part := 0, draining := drain, recs := recs, segs := segs, stalled := st }
/-- A record of two zero tiles. -/
def rec2 (stats : Bool) : HodRec := { tag := 0, format := 0, width := 1, tiles := 2, stats := stats }
/-- A working block whose hod region begins at slot 5, with a stack and a stream. -/
def hodded (h : List HodStack) (x : Stream) : State :=
  { withStreams (up [(K.SST_HOD_TILES, 522235), (K.HOD_PREFETCH, 1), (K.PLB_MODE, 0), (K.HOD_MP_PORTS, 1), (K.HOD_MP_SEGS, 2), (K.MP_STATE 0, 1), (K.ALIGN_STATUS, 2),
      (K.MP_META_BASE 0, 64)]) [x] with hod := h, mem := mem0 }
theorem test_witness_HodOpensAndCloses :
    (let x := strm 7 (desc 0x20)
     Runs (hodded [] x) 7 0x20 x ∧ hodTurn (hodded [] x) x = true ∧ hodStack (hodded [] x) (x.d.arg % 32) = none) ∧
    (let x := strm 7 (desc 0x20)
     let h := stk [] [] false none
     Runs (hodded [h] x) 7 0x20 x ∧ hodTurn (hodded [h] x) x = true ∧ hodStack (hodded [h] x) (x.d.arg % 32) = some h) ∧
    (let x := strm 7 (desc 0x23)
     let h := stk [rec2 false] [.yard 0] false none
     Runs (hodded [h] x) 7 0x23 x ∧ hodTurn (hodded [h] x) x = true ∧ hodStack (hodded [h] x) (x.d.arg % 32) = some h ∧ h.part = x.d.part) ∧
    (let x := strm 7 (desc 0x23)
     Runs (hodded [] x) 7 0x23 x ∧ hodTurn (hodded [] x) x = true ∧ hodStack (hodded [] x) (x.d.arg % 32) = none) ∧
    (∀ op ∈ [0x20, 0x23],
      let x := strm 7 (desc op)
      let s := withStreams (up []) [strm 6 (desc 0x21), x]
      Runs s 7 op x ∧ hodTurn s x = false) := by decide +kernel
theorem test_witness_HodPushed :
    (∀ stats : Bool,
      let x := { strm 7 { desc (if stats then 0x24 else 0x21) with count := 1 } with inbox := [zt 0] }
      let h := stk [] [.yard 0] false none
      let s := hodded [h] x
      hodTurn s x = true ∧ hodStack s (x.d.arg % 32) = some h ∧ h.part = x.d.part ∧ x.inbox = [zt 0] ∧ x.d.count = x.pos + 1 ∧
        reg s K.PLB_MODE = 0 ∧ reg s K.FLIP_STATE ≠ 1 ∧ hodBase s + 64 * 0 + 63 < 522240 ∧ Runs s 7 (if stats then 0x24 else 0x21) x ∧ x.mark = 0 ∧
        h.recs.length < 65536 ∧ h.stalled = none ∧ hodTiles h < 64 * h.segs.length ∧ h.segs[hodTiles h / 64]? = some (.yard 0)) ∧
    (∀ op ∈ [0x21, 0x24],
      let x := { strm 7 { desc op with count := 65 } with inbox := [zt 0], pos := 64, mark := 1 }
      let r := { rec2 false with tiles := 64 }
      let h := stk [r] [.yard 0] false (some 0)
      let s := hodded [h] x
      hodTurn s x = true ∧ hodStack s (x.d.arg % 32) = some h ∧ h.part = x.d.part ∧ x.inbox = [zt 0] ∧ x.d.count = x.pos + 1 ∧
        reg s K.PLB_MODE = 0 ∧ reg s K.FLIP_STATE ≠ 1 ∧ hodBase s + 64 * 1 + 63 < 522240 ∧ Runs s 7 op x ∧ x.mark = 1 ∧
        h.recs = [r] ∧ h.stalled = some 0 ∧ hodTiles h = 64 * h.segs.length ∧ freeSeg (yardSegsUsed s) (hodYardSegs s) = some 1) ∧
    SoundTile (zt 0) := ⟨by decide +kernel, by decide +kernel, zt_sound 0 (by decide)⟩
/-- A block that refills its draining stack from stack 0. -/
def filling : State := { hodded [stk [{ rec2 false with tiles := 128 }] [.region 0, .yard 0] true none] (strm 1 (desc 0)) with mem := mem1 }
theorem test_witness_HodReadBack_fill :
    (let h := stk [] [] false none
     let s := hodded [h] (strm 1 (desc 0))
     working s = true ∧ hodStack s 0 = some h ∧ h.draining = false) ∧
    (let h := stk [{ rec2 false with tiles := 128 }] [.region 0, .yard 0] true none
     working filling = true ∧ hodStack filling 0 = some h ∧ h.draining = true ∧ h.segs = [.region 0, .yard 0] ∧ 1 ≤ reg filling K.HOD_PREFETCH ∧
       freeSeg (yardSegsUsed filling) (hodYardSegs filling) = some 1 ∧ hodBase filling + 64 * 1 + 63 < 522240 ∧ reg filling K.FLIP_STATE ≠ 1) ∧
    (∀ i, i < 64 → ∃ p o, segLoc filling (.region 0) i = .stack p o ∧ PortServes filling p ∧ StackTile filling p o (zt 0)) := by
  refine ⟨by decide +kernel, by decide +kernel, fun i hi => ⟨0, i, ?_, by decide +kernel, stack1 filling rfl (by decide +kernel) i hi⟩⟩
  revert i; decide +kernel
/-- A block whose stack 0 has a record of two zero tiles in slots 5 and 6. -/
def popping (x : Stream) (stats : Bool) : State := hodded [stk [rec2 stats] [.yard 0] false none] x
theorem popping_base (x : Stream) (stats : Bool) : hodBase (popping x stats) = 5 := by
  unfold hodBase
  rw [show reg (popping x stats) K.SST_HOD_TILES = 522235 from rfl]
theorem popping_tiles (x : Stream) (stats : Bool) : ∀ p ∈ [0, 1], HodYardTile (popping x stats) (stk [rec2 stats] [.yard 0] false none) p (zt 0) := by
  intro p hp
  rcases List.mem_cons.mp hp with rfl | hp
  · exact ⟨0, rfl, by rw [popping_base]; exact yard5 _ rfl⟩
  · rcases List.mem_cons.mp hp with rfl | hp
    · exact ⟨0, rfl, by rw [popping_base]; exact yard6 _ rfl⟩
    · simp at hp
theorem test_witness_HodReadBack :
    (∀ turn : Bool,
      let x := strm 7 { desc 0x22 with count := 2, transpose := turn }
      let s := popping x false
      let h := stk [rec2 false] [.yard 0] false none
      hodTurn s x = true ∧ hodStack s (x.d.arg % 32) = some h ∧ h.part = x.d.part ∧ h.recs = [rec2 false] ∧ Runs s 7 0x22 x ∧
        popMismatch x.d (rec2 false) = none ∧
        (popOrder x.d.transpose 2 1).all (fun p => [0, 1].contains (hodTiles h - 2 + p)) = true) ∧
    (∀ c : Nat × Nat, c = (2, 0) ∨ c = (1, 5) →
     let x := strm 7 { desc 0x26 with count := c.1, scalar := c.2 }
     let s := popping x true
     let h := stk [rec2 true] [.yard 0] false none
     hodTurn s x = true ∧ hodStack s (x.d.arg % 32) = some h ∧ h.part = x.d.part ∧ Runs s 7 0x26 x ∧ (rec2 true).tag = hodTag x.d ∧
       x.d.scalar % 2 ^ 23 + 512 * x.d.count ≤ 512 * (rec2 true).tiles ∧
       (∀ p, p < x.d.count + b2n (decide (x.d.scalar % 512 ≠ 0)) → [0, 1].contains (hodTiles h - 2 + x.d.scalar % 2 ^ 23 / 512 + p) = true)) ∧
    (let x := strm 7 { desc 0x22 with count := 1 }
     let s := popping x false
     Runs s 7 0x22 x ∧ popMismatch x.d (rec2 false) = some 2) ∧
    (∀ x stats, ∀ p ∈ [0, 1], HodYardTile (popping x stats) (stk [rec2 stats] [.yard 0] false none) p (zt 0)) :=
  ⟨by decide +kernel, fun c hc => (by rcases hc with rfl | rfl <;> decide +kernel), by decide +kernel, popping_tiles⟩
theorem test_witness_StatsAndDigests_order :
    (let x := strm 7 { desc 0x25 with count := 1, scalar := 64 }
     Runs (withStreams (up []) [x]) 7 0x25 x ∧ ¬ (6 < x.d.arg % 8) ∧ ¬ (6 < bits x.d.arg 6 4) ∧ 0 < x.d.scalar % 2 ^ 23 ∧
       x.d.scalar % 2 ^ 23 % 64 = 0 ∧ orderTile (x.d.arg.testBit 8) 64 64 1 1 (x.d.scalar / 2 ^ 32) ≠ []) ∧
    (let x := strm 7 { desc 0x25 with count := 1, scalar := 63 }
     Runs (withStreams (up []) [x]) 7 0x25 x ∧ x.d.scalar % 2 ^ 23 % 64 ≠ 0) ∧ (0 : Nat) < 1 * 1 := by decide +kernel
theorem test_witness_StatsAndDigests :
    (let x := strm 7 (desc 0x28)
     Runs (withStreams (up []) [x]) 7 0x28 x ∧ reg (withStreams (up []) [x]) K.LOG_STATE ≠ 1) ∧
    (let x := strm 7 (desc 0x28)
     Runs (withStreams (up [(K.PLB_MODE, 2)]) [x]) 7 0x28 x ∧ reg (withStreams (up [(K.PLB_MODE, 2)]) [x]) K.PLB_MODE ≠ 1) ∧
    (let x := strm 7 (desc 0x28)
     let d : Digest := { part := 0, kind := 1, tag := 0, sum := 0, tiles := 1, poison := false, epoch := 0 }
     let s := { withHomes (withStreams (up [(K.LOG_STATE, 1), (K.LOG_SIZE, 128), (K.LOG_BASE, 0)]) [x]) [0] with digests := [d] }
     Runs s 7 0x28 x ∧ s.digests.filter (fun d => decide (d.part = x.d.part ∧ d.kind = 1 ∧ (x.d.arg.testBit 16 = true → d.tag = x.d.arg % 65536))) = [d] ∧
       reg s K.LOG_STATE = 1 ∧ reg s K.PLB_MODE = 1 ∧ (reg s K.LOG_PRODUCER + 2 ^ 32 - reg s K.LOG_CONSUMER) % 2 ^ 32 < reg s K.LOG_SIZE ∧ reg s K.FLIP_STATE ≠ 1 ∧
       slotOf s (reg s K.LOG_PARTITION) (reg s K.LOG_BASE % 2 ^ 48 + reg s K.LOG_PRODUCER % max 1 (reg s K.LOG_SIZE) / 128) = some 0) := by
  decide +kernel

/-! Witnesses: the sieve and the expert exchange. -/
theorem test_witness_MergeIsSetOperation :
    let k : Known := [(0, zt 0)]
    ∀ mode ∈ [0, 1, 2],
    let o : Operands := { mode := mode, a := 0, b := 0, na := 1, nb := 1 }
    [0].length = o.na ∧ [0].length = o.nb ∧ o.mode ≤ 2 ∧ [0].Pairwise (· < ·) ∧ (∀ i (h : i < [0].length), lookIndex k o.a i = .val [0][i]) ∧
      (∀ i (h : i < [0].length), lookIndex k o.b i = .val [0][i]) := by decide +kernel
/-- A merge of one index of each operand. -/
def merging (mode : Nat) : Stream :=
  strm 7 { desc 0x30 with hops := [3, 6, 1, 0, 0, 0], format := 6, outFormat := 6, arg := mode, count := 1, scalar := 2 ^ 32 + 1, src := 0, aux := 1 }
theorem test_witness_SieveMerged :
    (∀ mode ∈ [0, 1, 2],
      let x := merging mode
      Runs (shelf [] x) 7 0x30 x ∧ x.d.arg % 4 ≠ 3 ∧ x.d.format = 6 ∧ srcHop x.d ≠ stMP ∧ sinkHop x.d = stEP ∧ x.d.count = 1 ∧ x.tilesDone = 0 ∧ AtStart x ∧
        0 < x.d.scalar % 2 ^ 32 ∧ x.d.scalar % 2 ^ 32 ≤ 1024 ∧ 0 < x.d.scalar / 2 ^ 32 ∧ x.d.scalar / 2 ^ 32 ≤ 1024 ∧ x.d.arg / 256 = 0 ∧
        x.d.src ≠ x.d.aux ∧ (listEntries [zt 0] (x.d.scalar % 2 ^ 32)).Pairwise (· < ·) ∧ (listEntries [zt 0] (x.d.scalar / 2 ^ 32)).Pairwise (· < ·)) ∧
    ReadsYard (shelf [] (merging 0)) 0 0 (zt 0) ∧ ReadsYard (shelf [] (merging 0)) 0 1 (zt 0) :=
  ⟨by decide +kernel,
   readsY _ 0 0 5 0 (by decide +kernel) (by decide +kernel) (by decide +kernel) (by decide +kernel) (yard5 _ rfl),
   readsY _ 0 1 6 0 (by decide +kernel) (by decide +kernel) (by decide +kernel) (by decide +kernel) (yard6 _ rfl)⟩
/-- A gather, and a scatter, of one row. -/
def gathering : Stream := strm 7 { desc 0x31 with hops := [3, 6, 1, 0, 0, 0], count := 1, scalar := 1, src := 0, aux := 1 }
def scattering : Stream :=
  { strm 7 { desc 0x32 with hops := [1, 6, 3, 0, 0, 0], count := 1, scalar := 2 ^ 32 + 1, arg := 256, dst := 4, aux := 1 } with inbox := [zt 0] }
theorem test_witness_RowsMoved :
    (let x := gathering
     let idx := listEntries [zt 0] 1
     Runs (shelf [] x) 7 0x31 x ∧ x.d.arg % 8 ≠ 7 ∧ x.d.scalar % 2 ^ 32 = 1 ∧ x.tilesDone = 0 ∧ AtStart x ∧ listFault idx (x.d.count * 64) = none ∧
       srcHop x.d ≠ stMP ∧ sinkHop x.d = stEP ∧ idx = [0]) ∧
    (ReadsYard (shelf [] gathering) 0 1 (zt 0) ∧ ReadsYard (shelf [] gathering) 0 0 (zt 0)) ∧
    (let x := scattering
     let s := shelf [] x
     Runs s 7 0x32 x ∧ x.d.arg % 8 ≠ 7 ∧ x.d.scalar % 2 ^ 32 = 1 ∧ x.tilesDone = 0 ∧ AtStart x ∧ s.rdx.runs = [] ∧ listFault (listEntries [zt 0] 1) 64 = none ∧ sinkHop x.d = stHOM ∧ x.d.arg.testBit 8 = true ∧
       x.d.scalar / 2 ^ 32 = 1 ∧ x.d.count = ceilDiv 1 64 ∧ srcHop x.d = stEP ∧ x.inbox.length = x.d.count ∧ WritesYard s x.d.part x.d.dst 20 ∧
       x.d.format < 16) ∧
    (ReadsYard (shelf [] scattering) 0 1 (zt 0) ∧ SoundTile (zt 0)) :=
  ⟨by decide +kernel,
   ⟨readsY _ 0 1 6 0 (by decide +kernel) (by decide +kernel) (by decide +kernel) (by decide +kernel) (yard6 _ rfl),
    readsY _ 0 0 5 0 (by decide +kernel) (by decide +kernel) (by decide +kernel) (by decide +kernel) (yard5 _ rfl)⟩,
   by decide +kernel,
   readsY _ 0 1 6 0 (by decide +kernel) (by decide +kernel) (by decide +kernel) (by decide +kernel) (yard6 _ rfl), zt_sound 0 (by decide)⟩
/-- A plan of one expert, one choice a token, rows of 64 bytes, its counts at name 4 and eight destination tiles. -/
def plan1 : List Byte := [1, 0, 1, 0, 1, 0] ++ natLe 4 64 ++ natLe 8 4 ++ natLe 4 8
/-- The same with rows of a tile. -/
def plan2 : List Byte := [1, 0, 1, 0, 1, 6] ++ natLe 4 1 ++ natLe 8 4 ++ natLe 4 8
def dispatching : Stream :=
  { strm 7 { desc 0x33 with hops := [1, 6, 1, 0, 0, 0], count := 1, arg := 256, scalar := 9, aux := 1 } with inbox := [zt 0], text := plan1 }
def returning : Stream :=
  { strm 7 { desc 0x34 with hops := [1, 6, 1, 0, 0, 0], count := 1, arg := 256, scalar := 1 } with inbox := [zt 0], text := plan2 }
theorem test_witness_ExpertsExchanged :
    (let x := dispatching
     let s := shelf [] x
     let p := planOf x.text
     planRefuses p x.d.part = none ∧ 0 < x.d.arg / 256 ∧ p.code ≤ 6 ∧ x.tilesDone = 0 ∧ AtStart x ∧ x.epoch = reg s (K.EPOCH x.d.part) ∧ sinkHop x.d = stEP ∧ srcHop x.d = stEP ∧
       x.inbox.length = x.d.count ∧ Runs s 7 0x33 x ∧ x.d.count = ceilDiv 1 64 ∧ x.d.arg / 256 * p.topk = 1 ∧ listEntries [zt 0] 1 = [0] ∧
       0 < p.experts ∧ layoutFrom p 64 (roundUp p.cap 64) [0] p.experts 0 (p.experts * roundUp p.cap 64) [] = ([(0, 0)], 64) ∧ 64 / 64 ≤ p.dest) ∧
    (let x := dispatching
     let s := shelf [] x
     WritesYard s x.d.part (x.d.scalar % 2 ^ 48) 25 ∧ (∀ i, i < 5 → WritesYard s x.d.part ((planOf x.text).counts + i) (20 + i) ∧ 20 + i ≠ 25) ∧
       (∀ i j : Nat, i < 5 → j < 5 → 20 + i = 20 + j → i = j)) ∧
    (ReadsYard (shelf [] dispatching) 0 1 (zt 0) ∧ SoundTile (zt 0)) ∧
    (let x := returning
     let s := shelf [] x
     planRefuses (planOf x.text) x.d.part = none ∧ 0 < x.d.arg / 256 ∧ x.tilesDone = 0 ∧ AtStart x ∧ x.epoch = reg s (K.EPOCH x.d.part) ∧ (planOf x.text).code ≤ 6 ∧ sinkHop x.d = stEP ∧ srcHop x.d = stEP ∧ x.inbox.length = x.d.count ∧
       Runs s 7 0x34 x ∧ s.rdx.runs = [] ∧ x.d.count * (64 / 2 ^ (planOf x.text).code) = 1 ∧ tableFault (listEntries [zt 0] 1) 1 1 = none) ∧
    ReadsYard (shelf [] returning) 0 1 (zt 0) :=
  ⟨by decide +kernel, ⟨by decide +kernel, by decide +kernel, fun i j _ _ h => by omega⟩,
   ⟨readsY _ 0 1 6 0 (by decide +kernel) (by decide +kernel) (by decide +kernel) (by decide +kernel) (yard6 _ rfl), zt_sound 0 (by decide)⟩,
   by decide +kernel,
   readsY _ 0 1 6 0 (by decide +kernel) (by decide +kernel) (by decide +kernel) (by decide +kernel) (yard6 _ rfl)⟩

/-! Witnesses: the trough. -/
/-- A layer of two tiles from name 0, of one ordinal, in a state, with no term. -/
def lay (st : Nat) : Layer :=
  { num := 3, part := 0, queue := 0, tensor := 0, first := 0, tiles := 2, m := 1, isLocal := false, byDesc := false, unit := none, mask := [],
    reference := false, slots := 2, place := [(500, 2)], state := st, taken := 1, ended := [], terms := [], finals := [], bad := [] }
def layered (l : List (Nat × Nat)) (ls : List Layer) (x : Stream) : State := { shelf l x with layers := ls }
def opening (m : Nat) : Stream := strm 7 { desc 0x40 with arg := m + 3 * 65536, count := 2, dst := 0, format := 1 }
theorem test_witness_LayersOpenedReadClosed :
    (let x := opening 1
     let s := layered [] [] x
     Runs s 7 0x40 x ∧ x.d.arg.testBit 24 = false ∧ openRefuses s x (layerSlots (refMode s x.d.part x.epoch) x.d.count 1 none) = none ∧
       layerSlots (refMode s x.d.part x.epoch) x.d.count 1 none ≤ troughFree s ∧ s.tracker.streams.all (fun y => !accumulates y.d) = true ∧
       CleanLines s (troughPlace s (layerSlots (refMode s x.d.part x.epoch) x.d.count 1 none)) ∧ reg s K.FLIP_STATE ≠ 1) ∧
    (let x := opening 1
     let s := layered [] [{ lay 1 with num := 0, first := 100, slots := reg (up []) K.SST_TROUGH_TILES, place := [] }] x
     Runs s 7 0x40 x ∧ x.d.arg.testBit 24 = false ∧ openRefuses s x (layerSlots (refMode s x.d.part x.epoch) x.d.count 1 none) = none ∧
       troughFree s < layerSlots (refMode s x.d.part x.epoch) x.d.count 1 none) ∧
    (∀ st ∈ [1, 3],
      let x := strm 7 (desc 0x45)
      let s := layered [] [lay st] x
      Runs s 7 0x45 x ∧ layerOf s x.d.part x.d.dst = some (lay st) ∧ (st = 1 → ordinalBefore s (lay st) 7 = false) ∧ (st ≠ 1 → layerRead s (lay st) = false)) ∧
    (let x := strm 7 (desc 0x45)
     let y := { strm 6 (desc 0x41) with mark := 1 }
     let s := { layered [] [lay 1] x with tracker := { streams := [y, x], nextId := 9, nextFinish := 0, heads := [] } }
     Runs s 7 0x45 x ∧ layerOf s x.d.part x.d.dst = some (lay 1) ∧ (lay 1).state = 1 ∧ ordinalBefore s (lay 1) 7 = true) := by decide +kernel
def adding (op : Nat) : Stream :=
  { strm 7 { desc op with hops := [1, 7, 0, 0, 0, 0], format := 1, count := 1, dst := 0, aux := 1, scalar := 1 } with inbox := [zt 1], mark := 1 }
theorem test_witness_TermsAccumulated :
    (∀ op ∈ [0x41, 0x42],
      let x := adding op
      let s := layered [] [lay 1] x
      s.rdx.runs = [] ∧ CleanLines s (lay 1).place ∧ reg s K.FLIP_STATE ≠ 1 ∧ s.safety.lanes = [] ∧ layerOf s x.d.part x.d.dst = some (lay 1) ∧ layerAt s 3 = some (lay 1) ∧ (lay 1).unit = none ∧ srcHop x.d = stEP ∧
        x.d.count = 1 ∧ x.mark = 1 ∧ (lay 1).ended.contains x.ordinal = false ∧ Runs s 7 op x ∧ x.d.format = 1 ∧ accCheck s x 1 = .go (lay 1) ∧
        x.pos = 0 ∧ x.fetched = [] ∧ x.d.arg % 8 ≠ 7 ∧ x.d.arg.testBit 8 = false ∧ x.d.scalar % 2 ^ 32 = 1 ∧
        0 < 64 / 2 ^ (x.d.arg % 8) * ((lay 1).tiles - (x.d.dst - (lay 1).first))) ∧
    listEntries [zt 0] 1 = [0] ∧ (∀ e, smapGet ((smapGet (lay 1).terms e).getD []) (adding 0x41).ordinal = none) ∧ SoundTile (zt 1) ∧
    ReadsYard (layered [] [lay 1] (adding 0x42)) 0 1 (zt 0) :=
  ⟨by decide +kernel, by decide +kernel, fun _ => rfl, zt_sound 1 (by decide),
   readsY _ 0 1 6 0 (by decide +kernel) (by decide +kernel) (by decide +kernel) (by decide +kernel) (yard6 _ rfl)⟩
theorem test_witness_LayersOpenedReadClosed_sums :
    (let x := strm 7 (desc 0x43)
     let s := layered [] [lay 1] x
     layerAt s 3 = some (lay 1) ∧ Runs s 7 0x43 x ∧ s.rdx.runs = [] ∧ layerOf s x.d.part x.d.dst = some (lay 1) ∧ ordinalBefore s (lay 1) 7 = false ∧
       (lay 1).state = 1 ∧ keysRise (lay 1).terms = true ∧ CleanLines s (lay 1).place ∧ reg s K.FLIP_STATE ≠ 1) ∧
    (let x := strm 7 { desc 0x44 with hops := [7, 1, 0, 0, 0, 0], format := 1, outFormat := 1, count := 2 }
     let s := layered [] [lay 3] x
     layerAt s 3 = some (lay 3) ∧ Runs s 7 0x44 x ∧ layerOf s x.d.part x.d.src = some (lay 3) ∧ x.d.src + x.d.count ≤ (lay 3).first + (lay 3).tiles ∧
       sinkHop x.d = stEP ∧ x.d.format = x.d.outFormat ∧ x.pos = 0 ∧ x.tilesDone = 0 ∧ (lay 3).state = 3 ∧ CleanLines s (lay 3).place) ∧
    (let x := strm 7 { desc 0x44 with count := 2 }
     let s := layered [] [lay 2] x
     layerAt s 3 = some (lay 2) ∧ Runs s 7 0x44 x ∧ layerOf s x.d.part x.d.src = some (lay 2) ∧ (lay 2).state ≠ 3 ∧
       x.d.src + x.d.count ≤ (lay 2).first + (lay 2).tiles) := by decide +kernel

/-! Witnesses: reductions. -/
/-- A run of a stream in a group of two ranks. -/
def run1 (x : Stream) (op : Nat) (parts : List RdxPart) (shards : SMap (List Tile)) (sent : List (Nat × Nat)) (norms : List (Nat × Part × Bool)) (go : Bool) : RdxRun :=
  { sid := 7, part := 0, op := op, tag := 0, epoch := 0, slotted := true, started := go, asked := go, credit := [], parts := parts, shardsIn := shards,
    sentTiles := 0, sent := sent, norms := norms,
    desc := x.d, layer := none, ended := false, left := false }
def grouped (me : Nat) (ls : List Layer) (r : RdxRun) (x : Stream) : State :=
  let s := layered [(K.RG_STATE 0, 1), (K.RG_SIZE 0, 2), (K.RG_RANK 0, me), (K.RDX_NORM_MODE, 1), (K.RDX_MODE, 1)] ls x
  { s with rdx := { s.rdx with runs := [r] } }
/-- A layer of one tile that has its sums. -/
def lay1 (own : Bool) : Layer := { lay 3 with tiles := 1, isLocal := own }
theorem test_witness_ReductionsComplete :
    (let x := strm 7 { desc 0x51 with count := 1 }
     let r := run1 x 0x51 [] [] [] [] false
     let s := grouped 0 [lay1 true] r x
     findRun s 7 = some r ∧ r.slotted = true ∧ r.part = x.d.part ∧ r.op = x.d.opcode ∧ r.desc = x.d ∧ r.epoch = x.epoch ∧ r.left = false ∧ r.layer = none ∧ s.rdx.waiting = [] ∧ Runs s 7 0x51 x ∧ r.started = false ∧
       rdxRefuses s x = none ∧ layerOf s 0 x.d.src = some (lay1 true) ∧ (lay1 true).state = 3 ∧ normMode s ≠ 2 ∧ s.safety.lanes = [] ∧ CleanLines s (lay1 true).place) ∧
    (let x := strm 7 { desc 0x50 with hops := [8, 3, 0, 0, 0, 0], count := 1, dst := 4 }
     let r := run1 x 0x50 [{ shard := 1, first := 0, level := 1, seg := 0, elems := [], bad := [] }] [] [] [] true
     let s := grouped 1 [lay1 false] r x
     findRun s 7 = some r ∧ r.slotted = true ∧ r.part = x.d.part ∧ r.op = x.d.opcode ∧ r.desc = x.d ∧ r.epoch = x.epoch ∧ r.left = false ∧ r.layer = none ∧ s.rdx.waiting = [] ∧ Runs s 7 0x50 x ∧ r.started = true ∧ r.asked = true ∧
       x.d.arg.testBit 16 = false ∧ x.tilesDone = 0 ∧ layerOf s 0 x.d.src = some (lay1 false) ∧ (lay1 false).state = 3 ∧ CleanLines s (lay1 false).place ∧ edgeOut 2 1 1 = none ∧
       shardTiles 1 2 1 = 1 ∧ (∀ sh, sh < 2 → sh ≠ 1 → ∀ seg, seg < shardSegs 1 2 sh → False) ∧ (∀ e ∈ edgesIn 2 1 1, (findPart r 1 e.lo (ceilLog2 e.n) 0).isSome = true) ∧
       0 < (rootParts r 2 1).length ∧ sinkHop x.d = stHOM ∧ WritesYard s 0 x.d.dst 20) ∧
    (let x := strm 7 { desc 0x50 with hops := [8, 3, 0, 0, 0, 0], count := 1, dst := 4 }
     let r := run1 x 0x50 [{ shard := 1, first := 0, level := 1, seg := 0, elems := [], bad := [] }] [] [] [] true
     (rootTile (grouped 1 [lay1 false] r x) r (lay1 false) [{ shard := 1, first := 0, level := 1, seg := 0, elems := [], bad := [] }] 0 0).info.poison = 0) ∧
    (let x := strm 7 { desc 0x52 with hops := [3, 8, 1, 0, 0, 0], count := 1 }
     let r := run1 x 0x52 [] [(65536, [zt 1])] [(65536, 0)] [] true
     let s := grouped 1 [] r x
     findRun s 7 = some r ∧ r.slotted = true ∧ r.part = x.d.part ∧ r.op = x.d.opcode ∧ r.desc = x.d ∧ r.epoch = x.epoch ∧ r.left = false ∧ r.layer = none ∧ Runs s 7 0x52 x ∧ r.started = true ∧ r.asked = true ∧ x.tilesDone = 0 ∧ sinkHop x.d = stEP ∧
       (∀ sh, sh < 2 → ∀ seg, seg < shardSegs x.d.count 2 sh → ∀ e ∈ edgesIn 2 sh 1, (segKey sh seg, e.src) ∈ r.sent) ∧
       shardLo x.d.count 2 1 = 0 ∧ shardLo x.d.count 2 2 = 1 ∧ gatherSeg r 1 0 = some [zt 1]) ∧
    (let x := strm 7 { desc 0x53 with hops := [8, 1, 0, 0, 0, 0] }
     let r := run1 x 0x53 [] [] [] [(1, leaf 0, false), (0, leaf 0, false)] true
     let s := grouped 0 [] r x
     findRun s 7 = some r ∧ r.slotted = true ∧ r.part = x.d.part ∧ r.op = x.d.opcode ∧ r.desc = x.d ∧ r.epoch = x.epoch ∧ r.left = false ∧ r.layer = none ∧ Runs s 7 0x53 x ∧ r.started = true ∧ r.asked = true ∧ x.tilesDone = 0 ∧ sinkHop x.d = stEP ∧
       r.norms.find? (fun p => decide (p.1 = 0)) = some (0, leaf 0, false) ∧ (∀ k, k < 2 → r.norms.any (fun p => decide (p.1 = k)) = true)) :=
  ⟨by decide +kernel, by decide +kernel, by decide +kernel, by decide +kernel, by decide +kernel⟩
theorem test_witness_ReductionPackets_stall :
    ∀ b : Bool,
      let x := { strm 7 (desc 0x50) with stallRaised := b }
      let r := run1 x 0x50 [] [] [] [] true
      let s := grouped 0 [] r x
      working s = true ∧ findRun s 7 = some r ∧ findStream s 7 = some x ∧ x.finish = none := by decide +kernel

/-! Witnesses: the trowel. -/
/-- A tile with a program of one operation, which stores x0 in plane 0, in slot 5. -/
def progTile : Tile := dataTile (natLe 4 1 ++ natLe 4 0x20) 313292266
def mem3 : Memory := yardOf [(5, progTile)]
theorem yard3 (s : State) (hm : s.mem = mem3) : YardTile s 5 progTile :=
  yardPut s 5 progTile hm (by decide) (by decide +kernel) rfl (by decide +kernel) (by decide +kernel)
/-- A block that loads the program of name 0. -/
def loading : State := { shelf [] (strm 7 { desc 0x60 with arg := 8 }) with mem := mem3 }
theorem test_witness_ProgramLoaded :
    (Runs loading 7 0x60 (strm 7 { desc 0x60 with arg := 8 }) ∧ 8 ≤ 8 % 16 ∧ leAt progTile.data 0 4 % 64 = 1 ∧
       programOffends 1 (((List.range 1).map (fun i => leAt progTile.data (4 * (i + 1)) 4)).map opOf) = none) ∧
    (∃ k, homeOf loading 0 0 = .yard k ∧ YardTile loading k progTile) ∧
    (let x := strm 7 { desc 0x60 with arg := 15 }
     Runs (shelf [] x) 7 0x60 x ∧ leAt (zt 0).data 0 4 % 64 = 0 ∧ programOffends 0 [] = some 0) ∧
    ReadsYard (shelf [] (strm 7 { desc 0x60 with arg := 15 })) 0 0 (zt 0) ∧
    (let x := strm 7 { desc 0x60 with arg := 7 }
     Runs (shelf [] x) 7 0x60 x ∧ x.d.arg % 16 < 8) :=
  ⟨by decide +kernel, ⟨5, by decide +kernel, yard3 _ rfl⟩, by decide +kernel,
   readsY _ 0 0 5 0 (by decide +kernel) (by decide +kernel) (by decide +kernel) (by decide +kernel) (yard5 _ rfl), by decide +kernel⟩
/-- A parameter tile without mask, gate or split. -/
def params0 : Tile := { data := zeros 72 ++ natLe 6 nullName ++ zeros 4018, info := metaOf (zeros 16) }
/-- An update of the unit of names 16 to 31, by gradients in names 32 to 47, with the program that stores x0 in plane 0. -/
def updating : Stream :=
  { strm 7 { desc 0x61 with hops := [3, 9, 3, 0, 0, 0], format := 1, outFormat := 1, count := 16, src := 16, aux := 32, dst := 50 } with
    fetched := [(paramKey, params0)], text := natLe 4 0x20 }
def updated : State :=
  { withStreams (withHomes (up [(K.PLB_MODE, 0)]) ((List.range 64).map (fun i => if 16 ≤ i ∧ i < 32 then (16 + i) * 65536 else 8 * 65536))) [updating] with
    mem := mem0 }
theorem test_witness_UpdateRetired :
    (let x := updating
     let s := updated
     let p := paramsOf params0
     let ops := programOf x
     Runs s 7 0x61 x ∧ x.mark = 0 ∧ x.pos = 0 ∧ x.ordinal = 0 ∧ x.d.count = 16 ∧ smapGet x.fetched paramKey = some params0 ∧ params0.info.poison = 0 ∧
       ops ≠ [] ∧ ops.any (fun o => decide (storedBy o = some 0)) = true ∧ uses ops 0x04 = false ∧ uses ops 0x05 = false ∧ planesOf x.d = 1 ∧
       isHalf x.d 0 = false ∧ p.split = false ∧ p.mask = nullName ∧ p.gated = false ∧ x.d.arg.testBit 16 = false) ∧
    (let x := updating
     let s := updated
     let p := paramsOf params0
     reg s K.TRW_MODE = 1 ∧ reg s K.PLB_MODE = 0 ∧ hasWythe s 0 = false ∧ planeOffends s x = none ∧ updateOffends s x p = none ∧ clipOffends s x p none = none ∧ s.safety.lanes = [] ∧
       updateBlocked s x p = false ∧ s.mixer.kept = [] ∧ s.fabric.reqs.length ≤ 16384 ∧ srcHop x.d ≠ stMP ∧ sinkHop x.d = stHOM) ∧
    (∀ i, i < 16 → ReadsYard updated 0 (16 + i) (zt 1) ∧ WritesYard updated 0 (16 + i) (32 + i) ∧ finalLayer updated 0 (32 + i) = none ∧
      ReadsYard updated 0 (32 + i) (zt 1)) ∧
    (∀ i j : Nat, i < 16 → j < 16 → 32 + i = 32 + j → i = j) := by
  refine ⟨by decide +kernel, by decide +kernel, fun i hi => ⟨?_, ?_, ?_, ?_⟩, fun i j _ _ h => by omega⟩
  · exact readsY _ 0 _ (32 + i) 1 (by revert i; decide +kernel) (by revert i; decide +kernel) (by revert i; decide +kernel) (by revert i; decide +kernel)
      (yard0 _ rfl _ 1 (by omega) (by revert i; decide +kernel))
  · revert i; decide +kernel
  · revert i; decide +kernel
  · exact readsY _ 0 _ 8 1 (by revert i; decide +kernel) (by revert i; decide +kernel) (by revert i; decide +kernel) (by revert i; decide +kernel) (yard8 _ rfl)

/-! Witnesses: sealing, commits, repairs of a wythe. -/
/-- Registers of a wythe of two data ranks and one row, this block rank 0: three coded courses from name 16, three gradient courses from name 64,
headers at 112 and 113, ledger at 114, member and window tables at 116 and 117. -/
def wregs : List (Nat × Nat) :=
  [(K.WYTHE_STATE 0, 1), (K.WYTHE_K 0, 2), (K.WYTHE_M 0, 1), (K.WYTHE_RANK 0, 0), (K.CODED_FIRST 0, 16), (K.CODED_COURSES 0, 3), (K.GRAD_FIRST 0, 64),
   (K.GRAD_COURSES 0, 3), (K.HEADER_FIRST 0, 112), (K.GHEADER_FIRST 0, 113), (K.LEDGER_FIRST 0, 114), (K.MEMBER_TABLE 0, 116), (K.WIN_TABLE 0, 117),
   (K.PLB_MODE, 0), (K.LOG_STATE, 0), (K.BOND_SHIFT 0, 0)]
/-- Homes of names 0 to 127: slot 8 but for the headers, the ledger and the tables. -/
def whomes : List Nat :=
  (List.range 128).map (fun i =>
    (if i = 112 then 5 else if i = 113 then 6 else if i = 114 then 40 else if i = 115 then 41 else if i = 116 then 50 else if i = 117 then 51 else 8) * 65536)
def wythed (l : List (Nat × Nat)) (xs : List Stream) : State := { withStreams (withHomes (up (l ++ wregs)) whomes) xs with mem := mem0 }
/-- The same with rank 1 in the member table, at window 0, which is valid. -/
def reached (l : List (Nat × Nat)) (xs : List Stream) : State :=
  { wythed ((K.ALIGN_STATUS, 131072) :: (K.FP_NODE_ID, 1) :: l) xs with mem := { cells := [(204809, 1), (208900, 0x80)], marks := [], gen := 0 } }
/-- The same with a rank in a state. -/
def rankSet (s : State) (rs : List Nat) : State := { s with strs := [(K.RANK_STATES 0, rs.map (BitVec.ofNat 8) ++ zeros (32 - rs.length))] }
theorem readsG (s : State) (q name k f c0 : Nat) (hw : isWbName s q name = false) (hc : codedCourse s q name = none)
    (hg : gradCourse s q name = some c0) (hu : unbuilt s q c0 = false) (hh : homeOf s q name = .yard k) (hy : YardTile s k (zt f)) :
    ReadsYard s q name (zt f) :=
  ⟨hw, hc, fun c h => (by rw [hg] at h; cases h; exact hu), k, hh, hy⟩
theorem test_witness_GradientsSealed :
    (let x := { strm 7 { desc 0x70 with count := 16, src := 80 } with ordinal := 1 }
     let s := wythed [] [x]
     Runs s 7 0x70 x ∧ earlier s x (fun y => writesInto s y.d x.d.src x.d.count) = false ∧ x.pos = 0 ∧ x.mark = 0 ∧ x.degraded = [] ∧ x.ordinal = 1 ∧ x.d.count = 16 ∧
       codedCourses s 0 + (x.d.src - gradFirst s 0) / 16 = 4 ∧ isData s 0 4 (ownRank s 0) = true ∧ reg s K.PLB_MODE = 0 ∧ reg s K.MIX_MODE ≠ 2 ∧
       liveHolders s 0 4 = [1] ∧ brickName s 0 4 = 80) ∧
    (∀ i, i < 16 → ReadsYard (wythed [] [{ strm 7 { desc 0x70 with count := 16, src := 80 } with ordinal := 1 }]) 0 (80 + i) (zt 1)) ∧
    (let x := { strm 7 { desc 0x70 with count := 16, src := 80 } with ordinal := 1, pos := 1, mark := 1 }
     let s := wythed [] [x]
     Runs s 7 0x70 x ∧ earlier s x (fun y => writesInto s y.d x.d.src x.d.count) = false ∧ x.pos = x.d.count / 16 ∧ owedBy s 7 = false) ∧
    (let x := { strm 7 (desc 0x71) with ordinal := 1, pos := 3 }
     let s := wythed [] [x]
     Runs s 7 0x71 x ∧ refusalOf s 0 = none ∧ earlier s x (fun y => writesInto s y.d (gradFirst s 0) (gradNames s 0)) = false ∧ x.pos = gradCourses s 0 ∧
       gradOwed s 0 = false ∧ (∀ r ∈ s.mixer.resend, r.1 ≠ 0) ∧
       (∀ b ∈ s.mixer.begun, b.1 ≠ 0) ∧ (∀ r ∈ s.members.readyOwed, r.1 ≠ 0) ∧ x.ordinal = 1 ∧ sealHeld s 0 = false ∧ arrivalAt s 0 1 x.epoch (reg s (K.BG_POSITION 0)) = none) := by
  refine ⟨by decide +kernel, fun i hi => ?_, by decide +kernel, by decide +kernel⟩
  exact readsG _ 0 _ 8 1 4 (by revert i; decide +kernel) (by revert i; decide +kernel) (by revert i; decide +kernel) (by decide +kernel)
    (by revert i; decide +kernel) (yard8 _ rfl)
/-- A commit in a partition without a wythe map, its parameter tile of name 0. -/
def committing : Stream := { strm 7 (desc 0x72) with ordinal := 1 }
def committed : State := wythed [(K.WYTHE_STATE 0, 0)] [committing]
theorem test_witness_StepCommitted :
    (let x := committing
     let s := committed
     Runs s 7 0x72 x ∧ x.ordinal = 1 ∧ x.mark = 0 ∧ x.epoch = reg s (K.EPOCH 0) ∧ hasWythe s 0 = false ∧ ledgerHomed s 0 = true ∧
       s.mixer.updates = [] ∧ reg s K.LOG_STATE ≠ 1 ∧ reg s (K.RB_STATE 0) ≠ 2 ∧ reg s (K.RB_STATE 0) ≠ 3 ∧ (∀ y ∈ s.mixer.encodes, y.part ≠ 0) ∧
       (∀ y ∈ s.tracker.streams, y.d.part = 0 → y.hold ≠ 1) ∧ slotOf s 0 (ledgerName s 0 (1 - reg s (K.LEDGER_SLOT 0))) = some 41 ∧ reg s K.FLIP_STATE ≠ 1) ∧
    ReadsYard committed 0 0 (zt 1) :=
  ⟨by decide +kernel, readsY _ 0 0 8 1 (by decide +kernel) (by decide +kernel) (by decide +kernel) (by decide +kernel) (yard8 _ rfl)⟩
/-- A repair of rank 0's brick of course 1. -/
def rep1 (isDone : Bool) (lost : Nat) : Repair :=
  { part := 0, course := 1, lost := lost, mask := fullMask, prefs := [], rows := [], trust := false, extra := none, left := [],
    hold := false, isDone := isDone, again := false,
    failed := false, stale := false, sum := [], degraded := false }
theorem test_witness_RepairDescriptors :
    (let x := strm 7 { desc 0x75 with src := 16, count := 48 }
     let s := wythed [(K.STEP_PHASE 0, 1)] [x]
     Runs s 7 0x75 x ∧ x.mark = 0 ∧ phaseRefuses s 0 [1, 2, 3] true = none ∧ x.d.src % 16 = 0 ∧ x.d.count % 16 = 0 ∧
       within x.d.src x.d.count (codedFirst s 0) (16 * codedCourses s 0) = true ∧ rowsIn s 0 0 3 = [0] ∧ brickLocal s 0 (brickName s 0 0) = true ∧
       tierOfLoc (homeOf s 0 (headerName s 0 0)) ≠ 2) ∧
    (let x := strm 7 { desc 0x75 with src := 32, count := 32 }
     let s := wythed [(K.STEP_PHASE 0, 3)] [x]
     Runs s 7 0x75 x ∧ phaseRefuses s 0 [1, 2, 3] true = none ∧ x.d.src % 16 = 0 ∧ x.d.count % 16 = 0 ∧
       within x.d.src x.d.count (codedFirst s 0) (16 * codedCourses s 0) = true ∧ rowsIn s 0 1 2 = []) ∧
    (let x := { strm 7 (desc 0x75) with mark := 1 }
     Runs (wythed [] [x]) 7 0x75 x ∧ x.mark = 1 ∧ encodesOf (wythed [] [x]) 7 = []) ∧
    (let x := strm 7 { desc 0x74 with src := 64, count := 16 }
     let s := wythed [(K.STEP_PHASE 0, 4)] [x]
     Runs s 7 0x74 x ∧ x.nextIn = 0 ∧ x.pos = 0 ∧ x.mark = 0 ∧ phaseRefuses s 0 [4, 5] false = none ∧ x.d.src % 16 = 0 ∧ x.d.count % 16 = 0 ∧
       within x.d.src x.d.count (gradFirst s 0) (gradNames s 0) = true) ∧
    (∀ i, i < 16 → ReadsYard (wythed [(K.STEP_PHASE 0, 4)] [strm 7 { desc 0x74 with src := 64, count := 16 }]) 0 (64 + i) (zt 1)) ∧
    (let x := strm 7 { desc 0x73 with hops := [11, 1, 0, 0, 0, 0], src := 32, count := 16, arg := 2 }
     let s := { rankSet (wythed [(K.STEP_PHASE 0, 1)] [x]) [0, 0, 1] with repairs := [rep1 true 2] }
     Runs s 7 0x73 x ∧ x.mark = 0 ∧ x.pos = 0 ∧ x.tilesDone = 0 ∧ phaseRefuses s 0 [1, 2, 3] false = none ∧ rankState s 0 (x.d.arg % 32) = 1 ∧
       x.d.arg % 32 < wyN s 0 ∧ within x.d.src x.d.count (codedFirst s 0) (16 * codedCourses s 0) = true ∧ 0 < x.d.count ∧
       (x.d.src - codedFirst s 0) % 16 + x.d.count ≤ 16 ∧ sinkHop x.d = stEP ∧
       findRepair s 0 ((x.d.src - codedFirst s 0) / 16) (x.d.arg % 32) false = some (rep1 true 2) ∧ (rep1 true 2).failed = false) := by
  refine ⟨by decide +kernel, by decide +kernel, by decide +kernel, by decide +kernel, fun i hi => ?_, by decide +kernel⟩
  exact readsG _ 0 _ 8 1 3 (by revert i; decide +kernel) (by revert i; decide +kernel) (by revert i; decide +kernel) (by decide +kernel)
    (by revert i; decide +kernel) (yard8 _ rfl)
/-- A gradient brick of course 4 that rank 1 owes an answer for. -/
def kept4 : Kept :=
  { part := 0, sid := 7, kind := 1, course := 4, epoch := 0, unit := 0, rows := [1], sent := 1, owed := [1], refused := false, len := 0, lines := [],
    who := { part := 0, cls := 0, deadline := 0 } }
def withKept : State := { wythed [] [] with mixer := { State.reset.mixer with kept := [kept4] } }
theorem test_witness_WytheTimers :
    (∀ b : Bool, ∀ op ∈ [0x71, 0x72],
      let x := { strm 7 (desc op) with stallRaised := b }
      let s := wythed [] [x]
      working s = true ∧ findStream s 7 = some x ∧ x.taken = true ∧ x.finish = none ∧ x.hold = 0) ∧
    (let s := withKept
     working s = true ∧ s.mixer.kept.find? (fun k => decide (k.part = 0 ∧ k.kind = 1 ∧ k.course = codedCourses s 0 + 1)) = some kept4 ∧ 1 ∈ kept4.owed ∧
       1 ∈ kept4.rows.take kept4.sent ∧ kept4.refused = false ∧ tierOfLoc (homeOf s 0 (headerName s 0 kept4.course)) ≠ 2) ∧
    (∀ i, i < 16 → HomedYard withKept 0 (brickName withKept 0 kept4.course + i) (zt 1)) ∧
    (let e : Encode := { part := 0, course := 0, epoch := 0, owed := [1, 2], sid := none, begun := true, stopped := false }
     let s := { reached [] [] with mixer := { State.reset.mixer with encodes := [e] } }
     working s = true ∧ encodeAt s 0 0 = some e ∧ 1 ∈ e.owed ∧ e.stopped = false ∧ (0, 1, e.epoch) ∉ s.mixer.arrived ∧ RankReached s 0 1 256) ∧
    (let r := rep1 false 0
     let s := { wythed [] [] with repairs := [r] }
     working s = true ∧ openRepair s 0 1 0 = some r ∧ (∀ y ∈ s.repairs, y.part = 0 → y.course = 1 → y.lost = 0 → y = r) ∧
       (∀ y ∈ s.repairs, y.again = false) ∧ planRepair s (newRepair s 0 1 0 r.mask r.degraded r.prefs r.hold) = .made { solved := [0], rows := [0], tree := [2, 1], others := [] } ∧
       ownRank s 0 ∉ [2, 1]) ∧
    (let s := { rankSet (wythed [(K.RB_STATE 0, 2)] []) [2, 0, 0] with members := { State.reset.members with rebuilt := [(0, 2), (0, 2 ^ 48)] } }
     hasWythe s 0 = true ∧ rankState s 0 (ownRank s 0) = 2 ∧ smapHas s.members.copyFrom 0 = false ∧ reg s (K.RB_STATE 0) = 2 ∧
       unbuiltIn s 0 0 (codedCourses s 0) = [1] ∧ s.repairs = [] ∧
       planRepair s (newRepair s 0 1 (ownRank s 0) fullMask false [] false) = .made { solved := [0], rows := [0], tree := [2, 1], others := [] } ∧ ownRank s 0 ∉ [2, 1]) ∧
    (let s := { rankSet (wythed [(K.RB_STATE 0, 2)] []) [2, 0, 0] with members := { State.reset.members with rebuilt := [(0, 1), (0, 2), (0, 2 ^ 48)] } }
     hasWythe s 0 = true ∧ rankState s 0 (ownRank s 0) = 2 ∧ smapHas s.members.copyFrom 0 = false ∧ reg s (K.RB_STATE 0) = 2 ∧ working s = true ∧
       unbuiltIn s 0 0 (codedCourses s 0) = [] ∧ smapGet s.members.passEnd 0 = none) := by
  refine ⟨by decide +kernel, by decide +kernel, fun i hi => ⟨8, ?_, yard8 _ rfl⟩, by decide +kernel, by decide +kernel, by decide +kernel,
    by decide +kernel⟩
  revert i; decide +kernel

/-! Witnesses: snapshots. -/
/-- A descriptor of SNP_BEGIN in 64 bytes. -/
def beginBytes : List Byte := 0x80 :: 12 :: (zeros 30 ++ 1 :: zeros 31)
def cutting : State := { ringed beginBytes with regs := (K.STEP_PHASE 0, 1) :: (ringed beginBytes).regs }
theorem test_witness_SnapshotCut :
    (let s := cutting
     working s = true ∧ headReady s 0 = true ∧ headFirst s 0 = true ∧ smapGet s.tracker.heads 0 = none ∧ headBytes s 0 = some beginBytes ∧ NumbersFresh s ∧
       descRefuses (passHead (headVersion s 0).1 0) 0 (descOf beginBytes) = none ∧ (descOf beginBytes).opcode = 0x80 ∧
       commitHolds s (descOf beginBytes).part = false ∧ cutRefuses s (descOf beginBytes).part false = none) ∧
    (let x := { strm 7 (desc 0x80) with ordinal := 1 }
     Runs (withStreams (up []) [x]) 7 0x80 x ∧ x.ordinal = 1) := by decide +kernel
/-- An open session with so many bricks. -/
def sess (n : Nat) (led : Bool) : SnapSession := { part := 0, bricks := n, hasLedger := led, ledger := [] }
def sessioned (st : Nat) (y : SnapSession) (x : Stream) : State := { wythed [(K.SNP_STATE 0, st), (K.SNP_LAST_NAME 0, nullName), (K.WYTHE_STATE 0, 0)] [x] with snaps := [y] }
def exporting : Stream := strm 7 { desc 0x81 with hops := [3, 12, 1, 0, 0, 0], src := 32, count := 16 }
theorem test_witness_SnapshotExported :
    (let x := exporting
     let s := sessioned 1 (sess 0 false) x
     reg s (K.SNP_STATE 0) = 1 ∧ snapOf s 0 = some (sess 0 false) ∧ x.tilesDone = 0 ∧ Runs s 7 0x81 x ∧ x.nextIn = 0 ∧ x.pos = 0 ∧ x.mark = 0 ∧
       x.ordinal = 0 ∧ x.text = [] ∧ x.d.count = 16 ∧ x.d.outFormat = 0 ∧ exportRange s x = none ∧ reg s K.SNP_MODE ≠ 2) ∧
    (∀ i, i < 16 → ReadsYard (sessioned 1 (sess 0 false) exporting) 0 (32 + i) (zt 1)) ∧
    exportSuits exporting.d ((List.range 16).map (fun _ => zt 1)) = true ∧
    (let x := strm 7 { desc 0x82 with hops := [12, 1, 0, 0, 0, 0] }
     let s := sessioned 1 (sess 0 false) x
     Runs s 7 0x82 x ∧ ledgerPeek s 0 (reg s (K.LEDGER_SLOT 0)) = some (zeros 512) ∧ reg s K.SNP_MODE ≠ 2) ∧
    (let x := strm 7 (desc 0x83)
     let s := sessioned 1 (sess 3 true) x
     snapOf s 0 = some (sess 3 true) ∧ Runs s 7 0x83 x ∧ dataBricks s 0 = 3 ∧ (∀ z ∈ s.tracker.streams, z.d.part = 0 → z.hold ≠ 2)) ∧
    (let x := strm 7 (desc 0x83)
     let s := sessioned 1 (sess 2 true) x
     snapOf s 0 = some (sess 2 true) ∧ Runs s 7 0x83 x ∧ (sess 2 true).bricks ≠ dataBricks s 0) := by
  refine ⟨by decide +kernel, fun i hi => ?_, by decide +kernel, by decide +kernel, by decide +kernel, by decide +kernel⟩
  exact readsY _ 0 _ 8 1 (by revert i; decide +kernel) (by revert i; decide +kernel) (by revert i; decide +kernel) (by revert i; decide +kernel) (yard8 _ rfl)
/-- A manifest header of three coded courses from name 16, one rank, and a manifest's end of no record. -/
def man0 : List Byte := natLe 8 (1 + 2 ^ 16 + 2 ^ 22) ++ zeros 16 ++ natLe 8 16 ++ natLe 8 3 ++ zeros 84 ++ natLe 4 3270141526
def manTile : Tile := dataTile man0 2385513313
def endTile : Tile := dataTile (zeros 124 ++ natLe 4 3608925028) 2385513313
def restoring (st : Nat) (x : Stream) (v : Tile) : State := { sessioned st (sess 3 true) x with mem := yardOf [(8, v)] }
theorem yardMan (s : State) (hm : s.mem = yardOf [(8, manTile)]) : YardTile s 8 manTile :=
  yardPut s 8 manTile hm (by decide) (by decide +kernel) rfl (by decide +kernel) (by decide +kernel)
theorem yardEnd (s : State) (hm : s.mem = yardOf [(8, endTile)]) : YardTile s 8 endTile :=
  yardPut s 8 endTile hm (by decide) (by decide +kernel) rfl (by decide +kernel) (by decide +kernel)
/-- A ledger of one rank at step 0, and its record in one tile. -/
def led0 : List Byte := zeros 20 ++ natLe 4 1 ++ zeros 484 ++ natLe 4 3927496421
def recHead (version : Nat) (c : Nat) : List Byte :=
  natLe 8 (version + 2 ^ 16) ++ zeros 16 ++ natLe 8 nullName ++ natLe 8 (512 * 2 ^ 32) ++ natLe 8 1214729159 ++ zeros 12 ++ natLe 4 c
def recTile (h : List Byte) : Tile :=
  { data := h ++ led0 ++ zeros 3520, info := { crc := 0, format := 0, transposed := false, valid := 576, poison := 0 } }
def restoreOf (t : Tile) : Stream := { strm 7 { desc 0x85 with hops := [1, 12, 3, 0, 0, 0], count := 1 } with inbox := [t] }
theorem test_witness_SnapshotRestored :
    (let x := strm 7 { desc 0x84 with src := 16 }
     let s := { restoring 0 x manTile with regs := (K.STEP_PHASE 0, 1) :: (restoring 0 x manTile).regs }
     Runs s 7 0x84 x ∧ cutRefuses s 0 true = none ∧ isWbName s 0 16 = false ∧ codedCourse s 0 16 = none ∧ gradCourse s 0 16 = none ∧ homeOf s 0 16 = .yard 8 ∧ manifestDiffers s 0 (bytesAt manTile.data 0 128) = none) ∧
    (∀ s : State, s.mem = yardOf [(8, manTile)] → YardTile s 8 manTile) ∧
    (let x := restoreOf (recTile (recHead 1 1418628269))
     let s := sessioned 2 (sess 0 false) x
     let r := recordIn (tilesIn x.inbox)
     Runs s 7 0x85 x ∧ reg s (K.SNP_STATE 0) = 2 ∧ 0 < x.d.count ∧ x.inbox.length = x.d.count ∧ x.tilesDone = 0 ∧ x.pos = 0 ∧ x.mark = 0 ∧
       recordRefused s 0 r = none ∧ bits (leAt r.header 0 8) 19 16 = 1 ∧ (tilesIn x.inbox).length = 64 + r.payload.length ∧ snapOf s 0 = some (sess 0 false)) ∧
    (let x := restoreOf (recTile (recHead 1 0))
     let s := sessioned 2 (sess 0 false) x
     Runs s 7 0x85 x ∧ tilesIn x.inbox ≠ [] ∧ recordRefused s 0 (recordIn (tilesIn x.inbox)) = some 1) ∧
    (let x := strm 7 { desc 0x86 with src := 16 }
     let s := restoring 2 x endTile
     Runs s 7 0x86 x ∧ reg s (K.SNP_STATE 0) = 2 ∧ hasWythe s 0 = false ∧ isWbName s 0 16 = false ∧ codedCourse s 0 16 = none ∧ gradCourse s 0 16 = none ∧ homeOf s 0 16 = .yard 8 ∧ (sess 3 true).hasLedger = true ∧ snapOf s 0 = some (sess 3 true) ∧
       (sess 3 true).bricks = dataBricks s 0 ∧ leAt endTile.data 124 4 = crc32c (bytesAt endTile.data 0 124) ∧ leAt endTile.data 0 1 % 32 = 0 ∧
       leAt endTile.data 8 8 = reg s (K.SNP_RECORDS 0) ∧ leAt endTile.data 16 8 = reg s (K.SNP_DIGEST 0) ∧
       slotOf s 0 (ledgerName s 0 (1 - reg s (K.LEDGER_SLOT 0))) = some 41 ∧ reg s K.FLIP_STATE ≠ 1 ∧
       (∀ z ∈ s.tracker.streams, z.d.part = 0 → z.hold ≠ 2)) ∧
    (∀ s : State, s.mem = yardOf [(8, endTile)] → YardTile s 8 endTile) :=
  ⟨by decide +kernel, yardMan, by decide +kernel, by decide +kernel, by decide +kernel, yardEnd⟩

/-- A record of a brick of zeros at name 16, packed to two bytes an element, in nine tiles. -/
def brickHead : List Byte :=
  natLe 8 (1 + 2 * 2 ^ 20 + 2 ^ 24) ++ zeros 16 ++ natLe 8 16 ++ natLe 8 (32768 * 2 ^ 32) ++ natLe 8 3158555309 ++ zeros 12 ++ natLe 4 565783044
def rawTile (b : List Byte) (n : Nat) : Tile := { data := b, info := { crc := 0, format := 0, transposed := false, valid := n, poison := 0 } }
def brickTiles : List Tile := rawTile (brickHead ++ zeros 4032) 4096 :: (List.replicate 7 (rawTile (zeros 4096) 4096) ++ [rawTile (zeros 4096) 64])
def brickRecord : RecIn := { header := brickHead, payload := zeros 32768, whole := true, bad := false }
theorem tilesIn_raw (b : List Byte) (n : Nat) (h : b.length = 4096) : tilesIn [rawTile b n] = (b.take n).map (fun v => (v, false)) := by
  have e : (List.range 4096).map (fun i => tileBad (rawTile b n) (i / 64)) = List.replicate 4096 false := by
    rw [List.eq_replicate_iff]
    refine ⟨by simp, fun v hv => ?_⟩
    obtain ⟨i, -, rfl⟩ := List.mem_map.mp hv
    simp [tileBad, rawTile]
  have z : List.zip b (List.replicate 4096 false) = b.map (fun v => (v, false)) := by
    refine List.ext_getElem (by simp [h]) fun i h1 h2 => ?_
    rw [List.getElem_zip, List.getElem_replicate, List.getElem_map]
  unfold tilesIn
  rw [List.flatMap_cons, List.flatMap_nil, List.append_nil, e]
  show (List.zip b (List.replicate 4096 false)).take n = _
  rw [z, List.map_take]
theorem tilesIn_append (a b : List Tile) : tilesIn (a ++ b) = tilesIn a ++ tilesIn b := by simp [tilesIn]
theorem tilesIn_zeros (n : Nat) : tilesIn (List.replicate n (rawTile (zeros 4096) 4096)) = (zeros (4096 * n)).map (fun v => (v, false)) := by
  induction n with
  | zero => rfl
  | succ n ih =>
    rw [List.replicate_succ, ← List.singleton_append, tilesIn_append, ih, tilesIn_raw _ _ (by simp [zeros])]
    unfold zeros
    rw [List.take_replicate, List.map_replicate, List.map_replicate, List.map_replicate, List.replicate_append_replicate]
    exact congrArg (fun k => List.replicate k _) (by omega)
theorem brick_bytes : tilesIn brickTiles = (brickHead ++ zeros 32768).map (fun v => (v, false)) := by
  unfold brickTiles
  rw [← List.singleton_append, tilesIn_append, tilesIn_append, tilesIn_zeros, tilesIn_raw _ _ (by decide), tilesIn_raw _ _ (by simp [zeros]), ← List.map_append,
    ← List.map_append]
  refine congrArg (List.map _) ?_
  rw [List.take_of_length_le (by decide), List.append_assoc]
  refine congrArg (brickHead ++ ·) ?_
  unfold zeros
  rw [List.take_replicate, List.replicate_append_replicate, List.replicate_append_replicate]
  exact congrArg (fun k => List.replicate k _) (by decide)
theorem brick_record : recordIn (tilesIn brickTiles) = brickRecord := by
  have hl : brickHead.length = 64 := by decide
  have h : ((brickHead ++ zeros 32768).map (fun v => ((v, false) : Byte × Bool))).take 64 = brickHead.map (fun v => (v, false)) := by
    rw [← List.map_take, List.take_left' hl]
  have hn : bits (leAt brickHead 32 8) 48 32 = 32768 := by decide
  have hz : (zeros 32768).length = 32768 := List.length_replicate
  unfold recordIn
  rw [brick_bytes, h]
  simp only [List.map_map]
  rw [show (Prod.fst ∘ fun v => ((v, false) : Byte × Bool)) = id from rfl, List.map_id, hn,
    List.take_of_length_le (by rw [List.length_map, List.length_append, hl, hz]), ← List.map_drop, List.drop_left' hl, List.map_map,
    show (Prod.fst ∘ fun v => ((v, false) : Byte × Bool)) = id from rfl, List.map_id, List.length_map, List.length_append, hl, hz]
  refine congrArg₂ (RecIn.mk brickHead (zeros 32768)) (by decide) ?_
  rw [List.any_map]
  exact List.any_eq_false.mpr (fun _ _ => Bool.false_ne_true)
def crcRun (n : Nat) (c : Nat) : Nat := (zeros n).foldl crc32Byte c
theorem crcRun_add (m n c : Nat) : crcRun (m + n) c = crcRun n (crcRun m c) := by
  unfold crcRun zeros
  rw [← List.replicate_append_replicate, List.foldl_append]
theorem run0 : crcRun 4096 0xFFFFFFFF = 1728495222 := by decide +kernel
theorem run1b : crcRun 4096 1728495222 = 1874573788 := by decide +kernel
theorem run2 : crcRun 4096 1874573788 = 3736331674 := by decide +kernel
theorem run3 : crcRun 4096 3736331674 = 1805382778 := by decide +kernel
theorem run4 : crcRun 4096 1805382778 = 2437668224 := by decide +kernel
theorem run5 : crcRun 4096 2437668224 = 1929196296 := by decide +kernel
theorem run6 : crcRun 4096 1929196296 = 1878252600 := by decide +kernel
theorem run7 : crcRun 4096 1878252600 = 1136411986 := by decide +kernel
theorem crcRun_eight (a b c d e f g h i j : Nat) (h1 : crcRun a b = c) (h2 : crcRun a c = d) (h3 : crcRun a d = e) (h4 : crcRun a e = f)
    (h5 : crcRun a f = g) (h6 : crcRun a g = h) (h7 : crcRun a h = i) (h8 : crcRun a i = j) : crcRun (8 * a) b = j := by
  rw [show 8 * a = a + (a + (a + (a + (a + (a + (a + a)))))) by omega]
  rw [crcRun_add, h1, crcRun_add, h2, crcRun_add, h3, crcRun_add, h4, crcRun_add, h5, crcRun_add, h6, crcRun_add, h7, h8]
theorem crc_run (n : Nat) : crc32c (zeros n) = crcRun n 0xFFFFFFFF ^^^ 0xFFFFFFFF := rfl
theorem crc_brick : crc32c (zeros 32768) = 3158555309 := by
  have e : 8 * 4096 = 32768 := by decide
  have h : crc32c (zeros (8 * 4096)) = 3158555309 := by
    rw [crc_run, crcRun_eight _ _ _ _ _ _ _ _ _ _ run0 run1b run2 run3 run4 run5 run6 run7]
    rfl
  exact e ▸ h
/-- A session open for restoring, the names homed each in a slot of its own. -/
def bricking : State :=
  withHomes (sessioned 2 (sess 0 false) { strm 7 { desc 0x85 with hops := [1, 12, 3, 0, 0, 0], count := 9 } with inbox := brickTiles })
    ((List.range 64).map (fun i => (100 + i) * 65536))
theorem brick_taken : recordRefused bricking 0 brickRecord = none := by
  unfold recordRefused
  rw [show brickRecord.payload = zeros 32768 from rfl, crc_brick]
  decide +kernel
theorem test_witness_SnapshotRestored_brick :
    recordIn (tilesIn brickTiles) = brickRecord ∧ (tilesIn brickTiles).length = 64 + brickRecord.payload.length ∧ recordRefused bricking 0 brickRecord = none ∧
    (let x := { strm 7 { desc 0x85 with hops := [1, 12, 3, 0, 0, 0], count := 9 } with inbox := brickTiles }
     let s := bricking
     let name := leAt brickRecord.header 24 8 % 2 ^ 48
     Runs s 7 0x85 x ∧ reg s (K.SNP_STATE 0) = 2 ∧ 0 < x.d.count ∧ x.inbox.length = x.d.count ∧ x.tilesDone = 0 ∧ x.pos = 0 ∧ x.mark = 0 ∧
       bits (leAt brickRecord.header 0 8) 19 16 = 0 ∧ snapOf s 0 = some (sess 0 false) ∧ unbuilt s 0 ((name - codedFirst s 0) / 16) = false ∧
       ∀ i, i < 16 → WritesYard s 0 (name + i) (116 + i)) := by
  refine ⟨brick_record, ?_, brick_taken, by decide +kernel⟩
  rw [brick_bytes, List.length_map, List.length_append]
  exact congrArg₂ (· + ·) (by decide) rfl

/-! Witnesses: the dictionary. -/
/-- A working block with EP aligned and the MAC address 2 on port A. -/
def managed (l : List (Nat × Nat)) : State := { up (l ++ [(K.ALIGN_STATUS, 1)]) with strs := [(K.DMP_MAC_A, natLe 6 2), (K.DMP_MAC_B, natLe 6 3)] }
/-- A request of client 1 for an entry. -/
def req (idx sub : Nat) : DmpFrame := { frame0 with dst := 2, srcMac := 9, ethertype := reg State.reset K.DMP_ETHERTYPE, version := 1, client := 1, index := idx, sub := sub }
def withXfer (s : State) (x : Xfer) : State := { s with mgmt := { s.mgmt with clients := [{ id := 1, highest := 0, answers := [], xfer := some x }] } }
def xfer0 (write : Bool) (total : Nat) (data : List Byte) (gone : Bool) : Xfer :=
  { write := write, index := 0x6003, sub := 0, total := total, data := data, abandoned := gone }
theorem test_witness_UndefinedEntry :
    let s := managed []
    dictRow 0xFFFF 0 = none ∧ alive s = true ∧ (∀ p ∈ [Path.dmp, .ep], dictUp s p = true ∧ serves s p true 0xFFFF 0 = true ∧ serves s p false 0xFFFF 0 = true) ∧
      WindowFree s ∧ (∀ ty ∈ [0x01, 0x02, 0x03, 0x04, 0x05, 0x06], FrameFresh s (req 0xFFFF 0) ty) := by decide +kernel
theorem test_witness_DmpServed :
    (∀ ty ∈ [0x01, 0x02, 0x06], FrameFresh (managed []) (req 0xFFFF 0) ty) ∧
    (dictRead (heard (managed []) (req 0xFFFF 0)) .dmp 0xFFFF 0 = .error 0x06020000 ∧
     dictRead (heard (managed []) (req 0x6010 1)) .dmp 0x6010 1 = .ok [1] ∧
     dictDescribe (managed []) .dmp 0xFFFF 0 = .error 0x06020000) ∧
    (dictUp (managed []) .dmp = true ∧ frameOk (managed []) frame0 0x01 = false) ∧
    (let o := okTo (req 0x6003 0)
     let s := { managed [] with mgmt := { (managed []).mgmt with clients := [{ id := 1, highest := 0, answers := [(0, o)], xfer := none }] } }
     frameOk s (req 0x6003 0) 0x01 = true ∧ (clientOf s 1).answers.find? (fun a => decide (a.1 = 0)) = some (0, o)) := by decide +kernel
theorem test_witness_DmpServed_transfers :
    (FrameFresh (managed []) (req 0xFFFF 0) 0x03 ∧ writeGate (managed []) .dmp 0xFFFF 0 0 ≠ 0 ∧ writeGate (managed []) .dmp (0x2010 + 0) 9 1 = 0) ∧
    (let x := xfer0 true 4 [] false
     let f := { req 0x6003 0 with value := 0, data := [0, 0] }
     let s := withXfer (managed []) x
     (clientOf s f.client).xfer = some x ∧ x.abandoned = false ∧ x.index = f.index ∧ x.sub = f.sub ∧ FrameFresh s f 0x04 ∧ entryGate s .dmp true f.index f.sub = 0 ∧ x.write = true ∧
       f.value = x.data.length ∧ x.data.length + f.data.length < x.total ∧ f.last = false) ∧
    (let x := xfer0 true 4 [0, 0] false
     let f := { req 0x6003 0 with value := 2, data := [0, 0], last := true }
     let s := withXfer (managed []) x
     (clientOf s f.client).xfer = some x ∧ x.abandoned = false ∧ x.index = f.index ∧ x.sub = f.sub ∧ FrameFresh s f 0x04 ∧ entryGate s .dmp true f.index f.sub = 0 ∧
       x.write = true ∧ f.value = x.data.length ∧ x.data.length + f.data.length = x.total) ∧
    (let x := { xfer0 false 4 [0, 0, 0, 0] false with index := 0x6010, sub := 1 }
     let f := req 0x6010 1
     let s := withXfer (managed []) x
     (clientOf s f.client).xfer = some x ∧ x.abandoned = false ∧ x.index = f.index ∧ x.sub = f.sub ∧ FrameFresh s f 0x05 ∧ entryGate s .dmp false f.index f.sub = 0 ∧ x.write = false ∧ f.value < x.total) ∧
    (let x := xfer0 true 4 [0, 0] true
     let s := withXfer (managed []) x
     (clientOf s 1).xfer = some x ∧ alive s = true ∧ x.abandoned = true ∧ (∀ p ∈ [(0x04, true), (0x05, false)], FrameFresh s (req 0x6003 0) p.1 ∧ entryGate s .dmp p.2 0x6003 0 = 0)) ∧
    (let m := managed [(K.NOTIFY_MAC_A, 7), (K.NOTIFY_MAC_B, 0)]
     let s := { m with safety := { m.safety with notes := [(1, 2)] }, pins := { m.pins with mga := true } }
     alive s = true ∧ dictUp s .dmp = true ∧ s.safety.notes ≠ [] ∧ notifyMac s .mga ≠ 0 ∧ notifyMac s .mgb = 0 ∧ s.pins.mga = true ∧
       (managed []).safety.notes = []) := by
  refine ⟨by decide +kernel, by decide +kernel, by decide +kernel, by decide +kernel, by decide +kernel, by decide +kernel⟩
theorem test_witness_WindowRequests :
    (WindowFree (managed []) ∧ dictRead (managed []) .ep 0xFFFF 0 = .error 0x06020000 ∧ dictRead (managed []) .ep 0x6010 1 = .ok [1] ∧
      dictDescribe (managed []) .ep 0xFFFF 0 = .error 0x06020000 ∧ writeGate (managed []) .ep (0x2010 + 0) 9 1 = 0) ∧
    (∀ w : Bool,
      let x := xfer0 false 40 (zeros 8) w
      let s := { managed [] with mgmt := { (managed []).mgmt with winXfer := some x } }
      WindowFree s ∧ s.mgmt.winXfer = some x ∧ x.abandoned = w ∧ x.write = false ∧ x.index = 0x6003 ∧ x.sub = 0 ∧ entryGate s .ep false 0x6003 0 = 0 ∧ 32 + x.data.length = x.total) ∧
    (let s := { managed [] with mgmt := { (managed []).mgmt with busy := some 1 } }
     alive s = true ∧ dictUp s .ep = true ∧ s.mgmt.busy.isSome = true) := by
  refine ⟨by decide +kernel, by decide +kernel, by decide +kernel⟩

/-! Witnesses: the maps' states. -/
/-- A map of one name whose copies are the unmapped entry but for a yard home. -/
def mapped (e : Nat) (l : List (Nat × Nat)) : State :=
  let s := managed (l ++ [(K.ALIGN_STATUS, 3), (K.MP_STATE 0, 1), (K.HM_NAMES 0, 1), (K.HM_FIRST 0, 0), (K.HM_COPY_B 0, 2 ^ 44)])
  { s with homes := { s.homes with words := [(0, e)] } }
def lineRead (e : Nat) : State := (adoptScan 0 1 0 (mapped e []) []).1
theorem test_witness_MapEntries :
    (∀ p ∈ [Path.dmp, .ep], Writable (mapped 3 []) p 0x2210 5 1 ∧ Writable (mapped 3 []) p 0x2240 0 1) ∧
    (jobAttached (mapped 3 []) 0 = false ∧ reg (mapped 3 []) (K.HM_STATE 0) = 0 ∧ mapFormed (mapped 3 []) 0 = true ∧ mapInUse (mapped 3 []) 0 = false) ∧
    (jobAttached (mapped 3 [(K.JOB_STATE 0, 1)]) 0 = true ∧ Writable (mapped 3 [(K.JOB_STATE 0, 1)]) .dmp 0x2210 5 1 ∧
      Writable (mapped 3 [(K.JOB_STATE 0, 1)]) .dmp 0x2240 0 1) ∧
    (let s := managed []
     reg s (K.HM_STATE 0) = 0 ∧ mapFormed s 0 = false ∧ Writable s .dmp 0x2210 5 1) ∧
    (let s := mapped 3 [(K.HM_STATE 0, 1), (K.Q_STATE 0, 1)]
     mapInUse s 0 = true ∧ Writable s .dmp 0x2210 5 1 ∧ reg s (K.HM_STATE 0) ≠ 0) ∧
    (let s := mapped 3 [(K.HM_STATE 0, 2)]
     working s = true ∧ reg s (K.HM_STATE 0) = 2) := by decide +kernel
theorem test_witness_MapEntries_adopt :
    (let s := mapped 3 []
     reg s (K.HM_STATE 0) = 0 ∧ mapFormed s 0 = true) ∧
    (let s := mapped (20 * 65536) []
     let u := lineRead (20 * 65536)
     adoptScan 0 (reg s (K.HM_NAMES 0) / 8 + 1) 0 s [] = (u, some [(0, 20 * 65536)]) ∧ locOfEntry (20 * 65536) = .yard 20 ∧ reg u K.FLIP_STATE ≠ 1) ∧
    (let s := mapped (522240 * 65536) []
     adoptScan 0 (reg s (K.HM_NAMES 0) / 8 + 1) 0 s [] = (lineRead (522240 * 65536), none)) := by
  decide +kernel
/-- A block whose table of members names three nodes, its own first, and the registers of their wythe. -/
def members3 (l : List (Nat × Nat)) : State :=
  let s := wythed (l ++ [(K.WYTHE_STATE 0, 0), (K.FP_NODE_ID, 1), (K.ALIGN_STATUS, 1)]) []
  { s with mem := { cells := [(204801, 1), (204802, 1), (204809, 1), (204810, 2), (204817, 1), (204818, 3)], marks := [], gen := 0 },
           strs := [(K.DMP_MAC_A, natLe 6 2), (K.DMP_MAC_B, natLe 6 3)] }
theorem test_witness_MapEntries_wythe :
    (let s := members3 []
     Writable s .dmp (0x3010 + 0) 1 1 ∧ reg s (K.WYTHE_STATE 0) ≠ 1 ∧ wytheRefused s 0 = none ∧ reg s (K.JOB_STATE 0) ≠ 2 ∧ reg s (K.JOB_STATE 0) ≠ 4 ∧
       memberNode s 0 1 = some 2 ∧ 1 < wyN s 0) ∧
    (let s := members3 [(K.WYTHE_K 0, 1)]
     Writable s .ep (0x3010 + 0) 1 1 ∧ reg s (K.WYTHE_STATE 0) ≠ 1 ∧ wytheRefused s 0 = some (2, 0x06090030)) ∧
    (let s := members3 [(K.WYTHE_STATE 0, 1), (K.JOB_STATE 0, 2)]
     Writable s .dmp (0x3010 + 0) 1 1 ∧ reg s (K.WYTHE_STATE 0) = 1 ∧ reg s (K.JOB_STATE 0) = 2) := by
  decide +kernel

/-! Witnesses: entries with a range, and entries with effects. -/
/-- An entry has this limit, its type is fixed and the path may write it. -/
abbrev Limited (s : State) (path : Path) (idx sub : Nat) (l : Limit) : Prop :=
  limitOf idx sub = some l ∧
    (dictRow idx sub).any (fun r => fixedType r.ty && decide (l.most < 2 ^ (8 * r.size)) && decide (Writable s path idx sub r.size)) = true
theorem test_witness_EntriesWritten :
    (∀ p ∈ [Path.dmp, .ep], Limited (managed []) p 0x2B02 0 ⟨0x2B02, 1, 0, 1, 0, 60, 604800⟩ ∧ Limited (managed []) p 0x5004 0 ⟨0x5004, 1, 0, 1, 2, 100000000, 500000000⟩ ∧
      Limited (managed []) p 0x2E01 0 ⟨0x2E01, 1, 0, 1, 2, 0, 2⟩ ∧ Limited (managed []) .ep 0x2401 0 ⟨0x2401, 1, 0, 1, 2, 0, 2⟩ ∧ Limited (managed []) p 0x5003 0 ⟨0x5003, 1, 0, 1, 2, 0, 2⟩) ∧
    locked (managed []) ⟨0x5004, 1, 0, 1, 2, 100000000, 500000000⟩ 0x5004 0 = false ∧
    (let s := managed [(K.JOB_STATE 0, 1)]
     let l : Limit := ⟨0x5004, 1, 0, 1, 2, 100000000, 500000000⟩
     locked s l 0x5004 0 = true ∧ Limited s .dmp 0x5004 0 l) := by
  decide +kernel
theorem test_witness_EntriesWritten_effects :
    (let s := managed [(K.EV_PRODUCER, 3)]
     let ahead := fun x => (x + 2 ^ 32 - reg s K.EV_CONSUMER) % 2 ^ 32
     Writable s .dmp 0x6003 0 4 ∧ ahead 2 ≤ ahead (reg s K.EV_PRODUCER) ∧ ahead (reg s K.EV_PRODUCER) < ahead 4) ∧
    (let s := managed []
     alive s = true ∧ dictUp s .ep = true ∧ serves s .ep true 0x6010 6 = true ∧ Writable s .dmp 0x6010 6 1 ∧ anyJob s = false ∧ reg s K.SAFE_STATE ≠ 2) ∧
    (let s := managed [(K.JOB_STATE 0, 1)]
     anyJob s = true ∧ Writable s .dmp 0x6010 6 1) ∧
    (let s := managed [(K.FLIP_STATE, 1)]
     Writable s .dmp 0xA010 3 1 ∧ reg s K.FLIP_STATE = 1) ∧
    (∀ b ∈ [true, false],
     let m := managed []
     let s := if b then m else { m with strs := (K.FLIP_MASK, [1] ++ zeros 67) :: m.strs }
     let bad := decide (allZero (strN s K.FLIP_MASK 68) = true ∨ 2 ^ 16 ≤ reg s K.FLIP_TARGET ∨
       ((reg s K.FLIP_TARGET).testBit 9 = true ∧ 15 < reg s K.FLIP_TARGET % 512))
     Writable s .dmp 0xA010 3 1 ∧ reg s K.FLIP_STATE ≠ 1 ∧ bad = b) ∧
    (Writable (managed []) .dmp 0x5002 0 (zeros 12).length ∧ reg (managed []) K.PTP_STATE = 0 ∧ leAt (zeros 12) 2 4 < 1000000000 ∧
      1000000000 ≤ leAt (zeros 2 ++ natLe 4 1000000000 ++ zeros 6) 2 4) ∧
    (let s := managed [(K.PTP_STATE, 1)]
     Writable s .dmp 0x5002 0 (zeros 12).length ∧ reg s K.PTP_STATE ≠ 0) ∧
    (let s := managed [(K.MSN_PTP_MODE, 2)]
     let b := natLe 4 (nominalIncrement s) ++ zeros 8
     Writable s .dmp 0x5010 0 b.length ∧ reg s K.MSN_PTP_MODE = 2 ∧ slewOk s (leAt b 0 4) = true ∧ s.time.tb < tbWrap ∧ signedOf 64 (leAt b 4 8) = 0 ∧
       slewOk s (leAt (zeros 12) 0 4) = false) ∧
    (let s := managed [(K.MSN_PTP_MODE, 1)]
     Writable s .dmp 0x5010 0 (zeros 12).length ∧ reg s K.MSN_PTP_MODE ≠ 2) ∧
    (let m := managed [(K.SAFE_STATE, 0)]
     let s := { m with mason := { m.mason with bare := true } }
     let b := zeros 576
     Writable s .dmp 0x1F50 1 b.length ∧ s.mason.bare = true ∧ reg s K.FW_STATUS ≠ 2 ∧ reg s K.SAFE_STATE ≠ 2) ∧
    (let s := managed []
     Writable s .dmp 0x1F50 1 (zeros 576).length ∧ s.mason.bare = false) := by
  refine ⟨by decide +kernel, by decide +kernel, by decide +kernel, by decide +kernel, by decide +kernel, by decide +kernel, by decide +kernel, by decide +kernel,
    by decide +kernel, by decide +kernel, by decide +kernel⟩

/-! Witnesses: the recorder, the scrubber, the fabric's entries. -/
theorem crc32Byte_lt (c : Nat) (b : Byte) (h : c < 2 ^ 32) : crc32Byte c b < 2 ^ 32 := by
  have hb : ∀ c, c < 2 ^ 32 → crc32Bit c < 2 ^ 32 := fun c h => by
    unfold crc32Bit
    split
    · exact Nat.xor_lt_two_pow (by omega) (by decide)
    · omega
  exact hb _ (hb _ (hb _ (hb _ (hb _ (hb _ (hb _ (hb _ (Nat.xor_lt_two_pow h (by omega)))))))))
theorem crc32c_lt (l : List Byte) : crc32c l < 2 ^ 32 := by
  have : ∀ (l : List Byte) c, c < 2 ^ 32 → l.foldl crc32Byte c < 2 ^ 32 := fun l => by
    induction l with
    | nil => exact fun c h => h
    | cons b t ih => exact fun c h => ih _ (crc32Byte_lt c b h)
  exact Nat.xor_lt_two_pow (this l _ (by decide)) (by decide)
theorem leNat_natLe (n x : Nat) : leNat (natLe n x) = x % 256 ^ n := by
  induction n generalizing x with
  | zero => simp [natLe, leNat, Nat.mod_one]
  | succ n ih => rw [natLe, leNat, ih, BitVec.toNat_ofNat, Nat.pow_succ' (n := n), Nat.mod_mul]
theorem natLe_length (n x : Nat) : (natLe n x).length = n := by
  induction n generalizing x with
  | zero => rfl
  | succ n ih => simp [natLe, ih]
/-- A lifetime record of these identities, every counter and bin zero. -/
def recBody (t : List Byte) : List Byte := natLe 2 1 ++ zeros 30 ++ t ++ zeros 3980
def recOf (t : List Byte) : List Byte := recBody t ++ natLe 4 (crc32c (recBody t))
theorem recOf_reads (t : List Byte) (h : t.length = 80) :
    (recOf t).length = 4096 ∧ leAt (recOf t) 0 2 = 1 ∧ leAt (recOf t) 4092 4 = crc32c (bytesAt (recOf t) 0 4092) ∧ bytesAt (recOf t) 32 80 = t := by
  have hb : (recBody t).length = 4092 := by simp [recBody, zeros, natLe, h]
  have h0 : bytesAt (recOf t) 0 4092 = recBody t := by simp [bytesAt, recOf, ← hb]
  have h1 : bytesAt (recOf t) 4092 4 = natLe 4 (crc32c (recBody t)) := by
    have : (recOf t).drop 4092 = natLe 4 (crc32c (recBody t)) := by rw [recOf, ← hb, List.drop_left]
    simp [bytesAt, this, natLe]
  refine ⟨by simp [recOf, hb, natLe_length], by simp [leAt, bytesAt, recOf, recBody, natLe, leNat], ?_, ?_⟩
  · rw [h0, leAt, h1, leNat_natLe, Nat.mod_eq_of_lt (by have := crc32c_lt (recBody t); omega)]
  · have : recOf t = (natLe 2 1 ++ zeros 30) ++ (t ++ (zeros 3980 ++ natLe 4 (crc32c (recBody t)))) := by simp [recOf, recBody]
    have hl : (natLe 2 1 ++ zeros 30).length = 32 := rfl
    unfold bytesAt
    rw [this, ← hl, List.drop_left, ← h, List.take_left]
    simp
theorem tiers_length : ((List.range 5).flatMap tierBytes).length = 80 := by simp [List.range, List.range.loop, tierBytes, natLe_length]
/-- The tiers' identities with the first byte off. -/
def otherTiers : List Byte := let t := (List.range 5).flatMap tierBytes; (t.headD 0 + 1) :: t.tail
theorem otherTiers_reads : otherTiers.length = 80 ∧ otherTiers ≠ (List.range 5).flatMap tierBytes := by
  have h := tiers_length
  unfold otherTiers
  generalize (List.range 5).flatMap tierBytes = t at h
  cases t with
  | nil => simp at h
  | cons b t => exact ⟨by simpa using h, fun e => by simp only [List.headD_cons, List.cons.injEq] at e; have := e.1; bv_omega⟩
theorem test_witness_LifetimeRecorder :
    (∀ p ∈ [Path.dmp, .ep],
      let s := managed [(K.MSN_LIFE_MODE, 1), (K.NOTIFY_MAC_A, 7)]
      Writable s p 0x8100 0 4096 ∧ reg s K.LIFE_STATE = 0 ∧ reg s K.MSN_LIFE_MODE ≠ 0 ∧ Writable s p 0x8101 0 1) ∧
    (let b := recOf ((List.range 5).flatMap tierBytes)
     b.length = 4096 ∧ leAt b 0 2 = 1 ∧ leAt b 4092 4 = crc32c (bytesAt b 0 4092) ∧ bytesAt b 32 80 = (List.range 5).flatMap tierBytes) ∧
    (let b := recOf otherTiers
     b.length = 4096 ∧ leAt b 0 2 = 1 ∧ leAt b 4092 4 = crc32c (bytesAt b 0 4092) ∧ bytesAt b 32 80 ≠ (List.range 5).flatMap tierBytes) ∧
    (leAt (zeros 4096) 0 2 ≠ 1 ∧ Writable (managed [(K.LIFE_STATE, 1)]) .dmp 0x8100 0 4096 ∧ reg (managed [(K.LIFE_STATE, 1)]) K.LIFE_STATE ≠ 0 ∧
      Writable (managed [(K.LIFE_STATE, 1)]) .dmp 0x8101 0 1) ∧
    (let m := managed [(K.MSN_LIFE_MODE, 1), (K.NOTIFY_MAC_A, 7)]
     let s := { m with pins := { m.pins with mga := true } }
     recording s = true ∧ reg s K.MSN_LIFE_MODE = 1 ∧ notifyPorts s ≠ [] ∧ Writable s .dmp 0x8101 0 1) ∧
    (let s := managed [(K.MSN_LIFE_MODE, 1)]
     recording s = true ∧ reg s K.MSN_LIFE_MODE = 1 ∧ notifyPorts s = []) ∧
    (reg (managed [(K.MSN_LIFE_MODE, 2)]) K.MSN_LIFE_MODE ≠ 1 ∧ Writable (managed [(K.MSN_LIFE_MODE, 2)]) .dmp 0x8101 0 1) ∧
    latencyHist stTRW = some 1 :=
  ⟨by decide +kernel, recOf_reads _ tiers_length, by have h := (recOf_reads _ otherTiers_reads.1).2.2.2; exact ⟨(recOf_reads _ otherTiers_reads.1).1,
    (recOf_reads _ otherTiers_reads.1).2.1, (recOf_reads _ otherTiers_reads.1).2.2.1, fun e => otherTiers_reads.2 (h.symm.trans e)⟩, by decide +kernel, by decide +kernel, by decide +kernel,
    by decide +kernel, by decide +kernel⟩
/-- A block with one line of the yard marked. -/
def marked (m : Word32) (l : List (Nat × Nat)) : State := { managed (l ++ [(K.SCR_MODE, 1)]) with mem := { mem0 with marks := [(1, m)] } }
def atLine (s : State) (n : Nat) : State := { s with scrub := { s.scrub with pos := n } }
/-- A block with FP open, rank 1 in its member table at window 0, which is valid for every access, and its aperture at name 0. -/
def linked (l : List (Nat × Nat)) : State :=
  { wythed (l ++ [(K.ALIGN_STATUS, 131073), (K.FP_NODE_ID, 1), (K.WIN_STATE 0, 1), (K.APERTURE_FIRST 0, 0)]) [] with
    mem := { cells := [(204809, 1), (208900, 0xF0), (208911, 1)], marks := [], gen := 0 },
    strs := [(K.DMP_MAC_A, natLe 6 2), (K.DMP_MAC_B, natLe 6 3)] }
def ver1 (ask : List Nat) : Verify := { part := 0, course := 0, epoch := 0, mapEpoch := 0, toAsk := ask, fetched := [] }
theorem test_witness_LinesScrubbed :
    (let s := atLine (marked 1 []) 0
     working s = true ∧ reg s K.SCR_MODE = 1 ∧ lapLine (lapRuns s) s.scrub.pos = some (16, 0) ∧ s.scrub.pos + 1 < lapLines s ∧ markOf s.mem (64 * 0) = 0) ∧
    (let s := atLine (marked 1 []) 1
     working s = true ∧ reg s K.SCR_MODE = 1 ∧ lapLine (lapRuns s) s.scrub.pos = some (16, 1) ∧ s.scrub.pos + 1 < lapLines s ∧
       foundOf (markOf s.mem (64 * 1)) = .corrected 1 ∧ ownerOf s (.yard (1 / 64)) = none) ∧
    (let s := atLine (marked 1 []) (524288 * 64)
     working s = true ∧ reg s K.SCR_MODE = 1 ∧ lapLine (lapRuns s) s.scrub.pos = none) ∧
    (working (marked 1 [(K.SCR_MODE, 2)]) = true ∧ reg (marked 1 [(K.SCR_MODE, 2)]) K.SCR_MODE ≠ 1) ∧
    (∀ b : Bool,
      let m := marked 1 []
      let s := { m with time := { m.time with up := if b then 10 ^ 24 else 0 } }
      working s = true ∧ reg s K.SCR_MODE ≠ 0 ∧
        decide (reg s K.SCR_LAP_LIMIT_S * (s.scrub.limitHits + 1) ≤ (upNs s - s.scrub.lapStart) / 1000000000) = b) ∧
    (let s := marked 1 [(K.SCR_MODE, 2)]
     let b := natLe 8 16 ++ natLe 8 0 ++ natLe 4 1 ++ zeros 4
     Writable s .dmp 0x2B08 0 b.length ∧ reg s K.SCR_MODE = 2 ∧ leAt b 0 1 % 32 = 16 ∧ leAt b 8 8 = 0 ∧ leAt b 16 4 = 1 ∧ markOf s.mem (64 * 0) = 0 ∧
       s.scrub.ranges = []) ∧
    (let b := natLe 8 17 ++ zeros 16
     Writable (marked 1 []) .dmp 0x2B08 0 b.length ∧ 16 < leAt b 0 1 % 32) ∧
    (verifies (marked 1 []) 0 = false ∧ sampleOf (marked 1 []) 0 = none) ∧
    (let m := linked [(K.STEP_PHASE 0, 1)]
     let s := { m with safety := { m.safety with verify := [ver1 [16]] } }
     working s = true ∧ sampleOf s 0 = some (ver1 [16]) ∧ sampleStands s (ver1 [16]) = true ∧ memberEntry s 0 (16 / 16) = some 256 ∧
       (sendLoad s 0 (256 % 256) (brickName s 0 0 + 16 % 16 - reg s (K.APERTURE_FIRST 0) % 2 ^ 48) (.verify 0 0 16) (arrivalWho s 0)).2 = .sent) := by
  refine ⟨by decide +kernel, by decide +kernel, by decide +kernel, by decide +kernel, by decide +kernel, by decide +kernel, by decide +kernel, by decide +kernel,
    by decide +kernel⟩
/-- A broadcast's record: one tile from name 0 to name 1. -/
def bcast1 : List Byte := zeros 8 ++ natLe 4 1 ++ zeros 4 ++ natLe 6 1 ++ zeros 10
def rooted (l : List (Nat × Nat)) : State :=
  { wythed (l ++ [(K.ALIGN_STATUS, 131073), (K.BG_STATE 0, 1), (K.BG_SIZE 0, 1), (K.BG_POSITION 0, 0), (K.BG_TABLE 0, 116)]) [] with
    strs := [(K.DMP_MAC_A, natLe 6 2), (K.DMP_MAC_B, natLe 6 3)] }
theorem test_witness_FabricEntries :
    (let s := linked []
     let b := zeros 32
     Writable s .dmp 0x2F05 0 b.length ∧ s.fabric.pendingAtomic = false ∧ windowAllows s 0 (windowOf s 0 0) (windowOf s 0 0).at_ 0 = true ∧
       s.fabric.reqs = [] ∧ freeTag s = some 0 ∧ fpOpen s = true) ∧
    (let s := linked [(K.WIN_STATE 0, 0)]
     Writable s .ep 0x2F05 0 (zeros 32).length ∧ windowAllows s 0 (windowOf s 0 0) (windowOf s 0 0).at_ 0 = false) ∧
    (let m := linked []
     let r : Req := { tag := 0, type := 2, op := 0, lines := 0, node := 0, use := .atomic }
     let s := { m with fabric := { m.fabric with reqs := [r] } }
     Writable s .dmp 0x2F05 0 (zeros 32).length ∧ r ∈ s.fabric.reqs ∧ r.node = (windowOf s 0 0).node ∧ r.type = 2 ∧
       windowAllows s 0 (windowOf s 0 0) (windowOf s 0 0).at_ 0 = true) ∧
    (let m := linked []
     let s := { m with fabric := { m.fabric with pendingAtomic := true } }
     Writable s .dmp 0x2F05 0 (zeros 32).length ∧ s.fabric.pendingAtomic = true ∧ ¬ leAt (natLe 8 (2 ^ 15)) 0 8 < 2 ^ 15) ∧
    (let s := rooted []
     Writable s .dmp (0x2F30 + 0) 6 8 ∧ (positionNode s 0 0).isNone = false ∧ bcastOf s 0 = none ∧
       slotOf s 0 (reg s (K.BG_TABLE 0) % 2 ^ 48 + 4 * 0 / 4096) = some 50 ∧ reg s K.FLIP_STATE ≠ 1 ∧ reg s (K.BG_STATE 0) = 1 ∧ reg s (K.BG_SIZE 0) = 1 ∧ markOf s.mem (yardAddr 50 0) = 0) ∧
    (let s := rooted [(K.BG_STATE 0, 0)]
     Writable s .dmp (0x2F30 + 0) 6 8 ∧ reg s (K.BG_STATE 0) ≠ 1) ∧
    (let s := rooted []
     Writable s .dmp (0x2F30 + 0) 7 bcast1.length ∧
       reg s (K.BG_STATE 0) = 1 ∧ reg s (K.BG_POSITION 0) = 0 ∧ bcastOf s 0 = none ∧ childrenOf s 0 = [] ∧ leAt bcast1 8 4 = 1 ∧ leAt bcast1 0 6 = 0 ∧ leAt bcast1 16 6 = 1 ∧ WritesYard s 0 1 8) ∧
    ReadsYard (rooted []) 0 0 (zt 1) ∧
    (Writable (rooted [(K.BG_POSITION 0, 1)]) .dmp (0x2F30 + 0) 7 bcast1.length ∧ reg (rooted [(K.BG_POSITION 0, 1)]) (K.BG_POSITION 0) ≠ 0) := by
  refine ⟨by decide +kernel, by decide +kernel, by decide +kernel, by decide +kernel, by decide +kernel, by decide +kernel, by decide +kernel,
    readsY _ 0 0 8 1 (by decide +kernel) (by decide +kernel) (by decide +kernel) (by decide +kernel) (yard8 _ rfl), by decide +kernel⟩

/-! Witnesses: what the safety monitor detects; the ports and the pins. -/
/-- A block with these bytes of LG_OUT. -/
def withOut (b : List Byte) (l : List (Nat × Nat)) : State := { up l with strs := [(K.LG_OUT, b)] }
theorem test_witness_FaultsDetected :
    (working (withOut [1] []) = true ∧ (lgOut (withOut [1] [])).testBit 0 = true ∧ (lgOut (withOut [1] [])).testBit 1 = false) ∧
    (alive (up []) = true ∧ reg (up []) K.SAFE_STATE ≠ 2 ∧ 2 ≤ reg (up []) K.START_STAGE ∧ reg (up [(K.START_STAGE, 1)]) K.START_STAGE < 2) ∧
    (adjacentPairs.any (pairSkewed [500] []) = true ∧ adjacentPairs.any (pairSkewed [] []) = false ∧ junctionLimit < 881 ∧ (0 : Int) ≤ junctionLimit) := by
  decide +kernel
/-- A record of a tile that leaves. -/
def leaving : OutTile := { queue := 0, token := 0, ordinal := 0, tile := zt 0, varied := false, sid := 0, who := { part := 0, cls := 1, deadline := 0 } }
theorem test_witness_PortsServed :
    (working (managed []) = true ∧ epOpen (managed []) = true ∧ inboundStream (managed []) 0 0 0 = none) ∧
    (let x := strm 7 { desc 0x01 with hops := [1, 3, 0, 0, 0, 0], count := 2 }
     let s := withStreams (managed []) [x]
     working s = true ∧ epOpen s = true ∧ inboundStream s 0 0 0 = some x ∧ NumbersDiffer s ∧ (zt 0).info.format < 8 ∧ (zt 0).info.valid ≤ elemCount (zt 0).info.format ∧
       (zt 0).info.poison = 0) ∧
    (crc32c (zt 0).data = (zt 0).info.crc.toNat ∧ crc32c [] ≠ (zt 0).info.crc.toNat) ∧
    (let s := { managed [] with epOut := [leaving] }
     working s = true ∧ epOpen s = true ∧ outNext s = some leaving) ∧
    (let s := managed [(K.TIMING_MODE, 1)]
     working s = true ∧ reg s K.TIMING_MODE = 1) ∧
    (let s := { managed [(K.TIMING_MODE, 1)] with epOut := [leaving] }
     working s = true ∧ reg s K.TIMING_MODE = 1 ∧ s.pace.released < s.epOut.length) :=
  ⟨by decide +kernel, by decide +kernel, ⟨zt_crc, by decide +kernel⟩, by decide +kernel, by decide +kernel, by decide +kernel⟩
theorem test_witness_PinsAndTestPort :
    (alive (managed []) = true ∧ anyJob (managed []) = false ∧ reg (managed []) K.FLIP_STATE ≠ 1 ∧ (zeros 64).length = 64 ∧
      settable (managed []) 0x2B02 0 = true ∧ settable (managed []) 0xFFFF 0 = false ∧ limitOf 0x2B02 0 = some ⟨0x2B02, 1, 0, 1, 0, 60, 604800⟩) ∧
    (alive (managed [(K.JOB_STATE 0, 1)]) = true ∧ anyJob (managed [(K.JOB_STATE 0, 1)]) = true) ∧
    (reg (managed [(K.VREQ_OUT, 20), (K.VREQ_CODE, 20)]) K.VREQ_OUT = vreqTarget (managed [(K.VREQ_OUT, 20), (K.VREQ_CODE, 20)]) ∧
      reg (managed [(K.VREQ_OUT, 20), (K.VREQ_CODE, 21)]) K.VREQ_OUT ≠ vreqTarget (managed [(K.VREQ_OUT, 20), (K.VREQ_CODE, 21)])) := by decide +kernel

/-! Witnesses: the alignment of the clocks, and the timebase. -/
/-- Sixteen periods in which every domain counts 64. -/
def steady : List (List Nat) := List.replicate 16 (List.replicate 19 64)
def withAlign (s : State) (a : Align) : State := { s with align := a }
theorem test_witness_ClocksAligned :
    (let s := withAlign (out []) { periods := steady, counters := [], gaveUp := false }
     alive s = true ∧ reg s K.ALIGN_DONE ≠ 1 ∧ (passedCounts s.align.periods).all Option.isSome = true) ∧
    (let s := withAlign (out []) { periods := steady.tail, counters := [], gaveUp := false }
     alive s = true ∧ reg s K.ALIGN_DONE ≠ 1 ∧ (passedCounts s.align.periods).all Option.isSome = false ∧ s.time.running = false ∧ s.align.gaveUp = false ∧ upNs s < 1000000 ∧
       (((passedCounts (List.replicate 19 64 :: s.align.periods))[18]?).getD none).isSome = true ∧
       (((passedCounts (List.replicate 19 65 :: s.align.periods))[18]?).getD none).isSome = false) ∧
    (let late := fun (l : List (List Nat)) (b : Bool) => { withAlign (out []) { periods := l, counters := [], gaveUp := b } with time := { State.reset.time with up := 10 ^ 24 } }
     alive (late [] false) = true ∧ reg (late [] true) K.ALIGN_DONE ≠ 1 ∧ (late [] true).align.gaveUp = true ∧ 1000000 ≤ upNs (late [] false) ∧
       (passedCounts (late [] false).align.periods).any Option.isSome = false ∧ (passedCounts (late steady false).align.periods).any Option.isSome = true) ∧
    (let s := withAlign (out [(K.ALIGN_DONE, 1), (K.ALIGN_STATUS, 1), (K.ALIGN_COUNTS 0, 64)]) { periods := [], counters := List.replicate 19 0, gaveUp := false }
     alive s = true ∧ reg s K.ALIGN_DONE = 1 ∧ (reg s K.ALIGN_STATUS).testBit 0 = true ∧
       (countIn s.align.counters 0 + countIn [1] 0) % max 1 (reg s (K.ALIGN_COUNTS 0)) ≠ 0 ∧
       (∀ d, d < 19 → (reg s K.ALIGN_STATUS).testBit d = true → (countIn s.align.counters d + countIn [64] d) % max 1 (reg s (K.ALIGN_COUNTS d)) = 0)) := by
  decide +kernel
/-- A block that keeps its timebase by PTP in a mode, with a master of source 5 selected on port A. -/
def timed (l : List (Nat × Nat)) : State :=
  let s := managed (l ++ [(K.TB_SOURCE, 1), (K.MSN_PTP_MODE, 2), (K.PTP_STATE, 2), (K.PTP_PORT, 1)])
  { s with strs := (K.PTP_MASTER, natBe 8 5) :: s.strs, time := { s.time with running := true, tb := 10 ^ 10 }, pins := { s.pins with mga := true } }
def msg (s : State) (src seq : Nat) : PtpMsg := { port := .mga, domain := reg s K.PTP_DOMAIN, source := src, seq := seq, time := 10 ^ 10 }
theorem test_witness_TimeKept :
    (let s := timed []
     let m := msg s 6 0
     alive s = true ∧ ptpOn s = true ∧ (decide (m.domain = reg s K.PTP_DOMAIN) && isSelected s m) = false) ∧
    (let s := timed []
     let m := msg s 5 0
     let t2 := s.time.tb - rxLatency s m.port
     let o : Int := (t2 : Int) - m.time - s.time.delay
     ptpOn s = true ∧ (decide (m.domain = reg s K.PTP_DOMAIN) && isSelected s m) = true ∧ reg s K.MSN_PTP_MODE = 2 ∧ reg s K.PTP_STATE = 2 ∧
       offsetSmall o = true ∧ s.time.lock < 15 ∧ s.time.syncAt = none) ∧
    (let u := timed []
     let s := { u with time := { u.time with lock := 15, syncAt := some (0, 10 ^ 10), reqAt := some (0, 3), t1t2 := some (1, 2) } }
     let m := msg s 5 0
     let o : Int := ((s.time.tb - rxLatency s m.port : Nat) : Int) - m.time - s.time.delay
     (decide (m.domain = reg s K.PTP_DOMAIN) && isSelected s m) = true ∧ s.time.lock = 15 ∧ offsetSmall o = true ∧ s.time.syncAt = some (m.seq, 10 ^ 10) ∧
       s.time.reqAt = some (m.seq, 3) ∧ s.time.t1t2 = some (1, 2)) ∧
    (let u := timed [(K.MSN_PTP_MODE, 1)]
     let s := { u with time := { u.time with tb := 10 ^ 16 } }
     let m := { msg s 5 0 with time := 0 }
     let o : Int := ((s.time.tb - rxLatency s m.port : Nat) : Int) - m.time - s.time.delay
     ptpOn s = true ∧ (decide (m.domain = reg s K.PTP_DOMAIN) && isSelected s m) = true ∧ reg s K.MSN_PTP_MODE = 1 ∧ reg s K.PTP_STATE = 2 ∧
       s.time.stepped = false ∧ reg s K.PTP_STEP_NS * 65536 < o.natAbs) ∧
    (let s := timed [(K.PTP_STATE, 1)]
     let a := ann (msg s 5 0) 0
     ptpOn s = true ∧ a.msg.domain = reg s K.PTP_DOMAIN ∧ s.time.best = [] ∧ reg s K.PTP_STATE = 1) ∧
    (let u := timed []
     let a := ann (msg u 5 0) 0
     let s := { u with time := { u.time with best := [a] } }
     ptpOn s = true ∧ s.time.best = [a] ∧ reg s K.PTP_PORT = portNo .mga ∧ linkUp s .mga = true ∧ reg s K.PTP_STATE = 2) ∧
    (ptpOn (timed []) = true ∧ (ann { ptp0 with domain := reg (timed []) K.PTP_DOMAIN + 1 } 0).msg.domain ≠ reg (timed []) K.PTP_DOMAIN) ∧
    (ptpOn (managed [(K.TB_SOURCE, 0)]) = false ∧ alive (managed [(K.TB_SOURCE, 0)]) = true) ∧
    (let s := timed [(K.TB_SOURCE, 2)]
     alive s = true ∧ reg s K.TB_SOURCE = 2 ∧ s.time.running = true) ∧
    (let u := timed [(K.TB_SOURCE, 2)]
     let s := { u with time := { u.time with lastTpps := some 0 } }
     alive s = true ∧ reg s K.TB_SOURCE = 2 ∧ s.time.lastTpps ≠ none) := by
  refine ⟨by decide +kernel, by decide +kernel, by decide +kernel, by decide +kernel, by decide +kernel, by decide +kernel, by decide +kernel, by decide +kernel,
    by decide +kernel, by decide +kernel⟩

/-! Witnesses: the life of a job, and membership. -/
/-- Bytes and their CRC. -/
def sealed (b : List Byte) : List Byte := b ++ natLe 4 (crc32c b)
/-- A job's record: step 0, map epoch 1. -/
def job1 : List Byte := sealed (natLe 6 0 ++ natLe 2 1 ++ natLe 8 1 ++ zeros 44)
/-- An idle partition with its barrier group on, this block alone in it, or not, and a fingerprint. -/
def idle (l : List (Nat × Nat)) : State := rooted (l ++ [(K.WYTHE_STATE 0, 0), (K.JOB_FINGERPRINT 0, 1), (K.LIFE_STATE, 1), (K.FP_NODE_ID, 1)])
theorem test_witness_JobLife :
    (∀ p ∈ [Path.dmp, .ep],
      let s := idle [(K.BG_SIZE 0, 2)]
      Writable s p (0x3020 + 0) 1 job1.length ∧ jobFormed job1 = true ∧ jobRejoins job1 = false ∧ reg s (K.JOB_STATE 0) = 0 ∧ reg s (K.BG_STATE 0) = 1 ∧
        heartbeatSet s 0 = [0] ∧ (peerOf s 0).silent = false ∧ reg s (K.JOB_FINGERPRINT 0) ≠ reg s (K.FP_FINGERPRINT 0) ∧ reg s K.LIFE_STATE ≠ 0) ∧
    (let s := idle []
     Writable s .dmp (0x3020 + 0) 1 job1.length ∧ reg s (K.JOB_STATE 0) = 0 ∧ reg s (K.BG_STATE 0) = 1 ∧ heartbeatSet s 0 = [] ∧ treeNodes s 0 = [] ∧
       3 ≤ reg s K.FP_LEVEL_MAX ∧ reg s (K.JOB_FINGERPRINT 0) ≠ reg s (K.FP_FINGERPRINT 0) ∧ jobFormed job1 = true ∧ jobRejoins job1 = false ∧ reg s K.START_STAGE = 5 ∧ reg s K.SAFE_STATE = 1 ∧ ledgerHomed s 0 = true ∧ slotOf s 0 (ledgerName s 0 0) = some 40 ∧
       reg s K.FLIP_STATE ≠ 1 ∧ 0 ∉ s.members.readyHeld ∧ jobFormed (zeros 64) = false) ∧
    (let s := idle [(K.JOB_STATE 0, 4)]
     Writable s .dmp (0x3020 + 0) 2 1 ∧ Writable s .dmp (0x3020 + 0) 1 job1.length ∧ reg s (K.JOB_STATE 0) = 4) ∧
    (∀ st ∈ [1, 3],
      let u := idle [(K.JOB_STATE 0, 1)]
      let s := { u with members := { u.members with starting := [(0, st)] } }
      Writable s .dmp (0x3020 + 0) 2 1 ∧ reg s (K.JOB_STATE 0) = 1 ∧ jobStage s 0 = st ∧ arrivalAt s 0 0 (jobStep s 0) (reg s (K.BG_POSITION 0)) = none) ∧
    (let s := idle [(K.JOB_STATE 0, 2)]
     Writable s .dmp (0x3020 + 0) 2 1 ∧ reg s (K.JOB_STATE 0) = 2 ∧ (List.range 4).all (fun i => decide (reg s (K.Q_STATE (4 * 0 + i)) = 0)) = true ∧
       s.tracker.streams = []) ∧
    (Writable (idle []) .dmp (0x3020 + 0) 2 1 ∧ reg (idle []) (K.JOB_STATE 0) = 0) ∧
    (let u := idle [(K.JOB_STATE 0, 1)]
     let s := { u with barriers := { u.barriers with down := [(0, 0, 0, 5)] } }
     working s = true ∧ reg s (K.JOB_STATE 0) = 1 ∧ s.barriers.down.find? (fun d => decide (d.1 = 0 ∧ d.2.1 = 0)) = some (0, 0, jobStep s 0, 5)) := by
  refine ⟨by decide +kernel, by decide +kernel, by decide +kernel, by decide +kernel, by decide +kernel, by decide +kernel, by decide +kernel⟩
/-- The command that goes on with the map of `members3` at map epoch `e`, step 0. -/
def cmdBytes (e : Nat) : List Byte :=
  natLe 8 (e + 2 ^ 48) ++ zeros 8 ++ natLe 8 (2 * 2 ^ 10 + 2 ^ 15) ++ natLe 8 116 ++ zeros 48 ++
    [16, 3, 112, 64, 3, 113].flatMap (natLe 8) ++ zeros 124
def command (e : Nat) : List Byte := sealed (cmdBytes e)
/-- A packet of a type from node 9 to this block, whole in its header. -/
def pk (type : Nat) (p : Packet) : Packet := sealHdr { p with type := type, level := 3, src := 9, dst := 1 }
theorem test_witness_MembershipTaken :
    (let x := strm 7 (desc 0x71)
     let s := withStreams (members3 [(K.WYTHE_STATE 0, 1), (K.JOB_STATE 0, 2)]) [x]
     Writable s .dmp (0x3040 + 0) 1 (command 1).length ∧ cmdRefused s 0 (cmdOf (command 1)) = none ∧ (cmdOf (command 1)).own ≠ 2 ∧
       (cmdOf (command 1)).outcome = 0 ∧ NumbersDiffer s ∧ x ∈ s.tracker.streams ∧ x.taken = true ∧ x.finish = none) ∧
    (let s := members3 [(K.WYTHE_STATE 0, 1), (K.JOB_STATE 0, 2)]
     Writable s .ep (0x3040 + 0) 1 (command 0).length ∧ cmdRefused s 0 (cmdOf (command 0)) = some (3, 0x08000022)) ∧
    (let s := linked []
     let p := pk 0x16 { pkt0 with mapEpoch := 1 }
     Arrives s p 0x16 ∧ s.members.fenced = [] ∧ fenceHits s p 0 = true ∧ fenceHits s p 1 = false) := by
  refine ⟨by decide +kernel, by decide +kernel, by decide +kernel⟩

/-! Witnesses: requests and their answers. -/
/-- A block whose aperture exposes names 0 to 15 of partition 0, with FP open. -/
def exposed (l : List (Nat × Nat)) (xs : List Stream) : State :=
  let s := shelf (l ++ [(K.ALIGN_STATUS, 131072), (K.FP_NODE_ID, 1), (K.APERTURE_FIRST 0, 0), (K.APERTURE_NAMES 0, 16)]) (strm 7 (desc 0))
  { s with tracker := { s.tracker with streams := xs } }
/-- The lines of a zero tile, and a store of it to name 4. -/
def zeroLines : List Line := List.replicate 64 { bytes := zeros 64, mark := 0 }
def infoWord (i : Nat) : Word64 := BitVec.ofNat 64 (leAt (metaBytes (zt 0).info) (8 * i) 8)
def storing : Packet := pk 0x02 { pkt0 with whole := true, address := 16384, lines := 64, w4 := infoWord 0, w5 := infoWord 1, payload := zeroLines }
def flagging : Packet := pk 0x03 { pkt0 with address := 4096, lines := 1, w4 := 0, w5 := 7, payload := [{ bytes := zeros 64, mark := 0 }] }
theorem lineAfter_clean (b : List Byte) : lineAfter b 0 = (b, 0) := by simp [lineAfter, lineOutcome]
theorem zeroLines_data : lineData zeroLines = zeros 4096 := by
  unfold lineData zeroLines
  rw [List.map_replicate, lineAfter_clean, zeros, List.flatten_replicate_replicate]; rfl
theorem zeroLines_bad : lineBad zeroLines = [] := by
  unfold lineBad zeroLines
  refine List.filter_eq_nil_iff.mpr fun i hi => ?_
  rw [List.length_replicate, List.mem_range] at hi
  rw [List.getElem?_replicate, if_pos hi]
  simpa using congrArg Prod.snd (lineAfter_clean (zeros 64))
theorem storing_tile : storeWhole storing = zt 0 := by
  have h : storing.payload = zeroLines := rfl
  unfold storeWhole
  rw [h, zeroLines_data, zeroLines_bad]
  exact congrArg (Tile.mk (zeros 4096)) (by decide +kernel)
def asked (use : ReqUse) (xs : List Stream) : State :=
  let s := exposed [] xs
  { s with fabric := { s.fabric with reqs := [{ tag := 0, type := 1, op := 0, lines := 0, node := 9, use := use }] } }
theorem test_witness_RequestsServed :
    (let s := exposed [] []
     ∀ ty ∈ [0x01, 0x02, 0x03],
       let p := pk ty { pkt0 with address := 2 ^ 20, w4 := 1 }
       apertureRefuses s 0 p.address (linesFormed p) = some 0x01 ∧ Arrives s p ty) ∧
    (let s := exposed [] []
     let p := pk 0x01 { pkt0 with w4 := 64, whole := true }
     Arrives s p 0x01 ∧ apertureRefuses s 0 p.address (linesFormed p) = none ∧ apertureName s 0 p.address = 0) ∧
    (ReadsYard (exposed [] []) 0 0 (zt 0) ∧ ReadsYard (exposed [] []) 0 1 (zt 0)) ∧
    (let s := exposed [] []
     let p := storing
     Arrives s p 0x02 ∧ apertureRefuses s 0 p.address (linesFormed p) = none ∧ p.whole = true ∧ WritesYard s 0 4 20 ∧ apertureName s 0 p.address = 4 ∧
       InOrder s p ∧ (seqTrack s p.src 0).next = p.seq) ∧
    SoundTile (storeWhole storing) ∧
    (let s := exposed [] []
     let p := flagging
     Arrives s p 0x03 ∧ apertureRefuses s 0 p.address (linesFormed p) = none ∧ lineBad p.payload = [] ∧ apertureName s 0 p.address = 1 ∧ WritesYard s 0 1 6 ∧
       apertureRefuses s 0 (p.w4.toNat % 2 ^ 48) (decide (p.w4.toNat % 8 = 0)) = none ∧ WritesYard s 0 0 5 ∧ InOrder s p ∧ (seqTrack s p.src 0).next = p.seq) ∧
    (let s := exposed [] []
     let p := pk 0x04 { pkt0 with w6 := 0 }
     Arrives s p 0x04 ∧ apertureRefuses s 0 p.address (decide (p.address % atomicSize p = 0 ∧ atomicOp p ≤ 5)) = none ∧
       ¬ ((atomicOp p = 3 ∨ atomicOp p = 4) ∧ p.level = 3) ∧ WritesYard s 0 0 5 ∧ InOrder s p) ∧
    (let u := exposed [] []
     let x := { pk 0x04 { pkt0 with seq := 5 } with combined := true }
     let s := { u with fabric := { u.fabric with flagged := [x] } }
     working s = true ∧ s.fabric.flagged.find? (fun y => decide (y.src = x.src ∧ y.partition = 0 ∧ y.seq = x.seq)) = some x ∧ x.type = 0x04 ∧ x.combined = true ∧
       x.level = 3 ∧ fpOpen s = true) ∧
    (let s := exposed [] []
     let p := pk 0x08 pkt0
     Arrives s p 0x08 ∧ p.combined = false ∧ NoAtomicWaits s ∧ s.fabric.reqs.find? (fun r => decide (r.tag = p.tag)) = none) ∧
    (∀ use ∈ [ReqUse.atomic, .read 7 3, .write 7],
      let x := strm 7 (desc 1)
      let s := asked use [x]
      let r : Req := { tag := 0, type := 1, op := 0, lines := 0, node := 9, use := use }
      let p := pk 0x08 pkt0
      Arrives s p 0x08 ∧ p.combined = false ∧ NoAtomicWaits s ∧ s.fabric.reqs.find? (fun r => decide (r.tag = p.tag)) = some r ∧ r.node = p.src ∧ p.status = 0 ∧
        findStream s 7 = some x ∧ x.closing = false ∧ s.members.starting = [] ∧ working s = true) := by
  refine ⟨by decide +kernel, by decide +kernel, ?_, by decide +kernel, ?_, by decide +kernel, by decide +kernel, by decide +kernel, by decide +kernel, by decide +kernel⟩
  · exact ⟨readsY _ 0 0 5 0 (by decide +kernel) (by decide +kernel) (by decide +kernel) (by decide +kernel) (yard5 _ rfl),
      readsY _ 0 1 6 0 (by decide +kernel) (by decide +kernel) (by decide +kernel) (by decide +kernel) (yard6 _ rfl)⟩
  · rw [storing_tile]; exact zt_sound 0 (by decide)

/-! Witnesses: peers, the barrier tree, the broadcast. -/
/-- A block with FP open at position `p` of a barrier group of `n`, whose table gives position 1 node 1 and every other node 0. -/
def treed (p n : Nat) (l : List (Nat × Nat)) : State :=
  { rooted (l ++ [(K.BG_POSITION 0, p), (K.BG_SIZE 0, n), (K.FP_NODE_ID, 1)]) with
    mem := { cells := [(204804, 1)] ++ mem0.cells, marks := [], gen := 0 } }
def withPeer (s : State) (p : Peer) : State := { s with fabric := { s.fabric with peers := [p] } }
def peer9 : Peer := { node := 9, level := 3, nonce := 7, misses := 40, silent := false, deadNoted := false, restarted := false, known := true, heard := true }
theorem test_witness_PeersKnown_a :
    (let s := treed 0 3 []
     working s = true ∧ fpOpen s = true ∧ heartbeatUnion s = [0]) := by decide +kernel
theorem test_witness_PeersKnown_b :
    (let s := withPeer (linked []) peer9
     let p := pk 0x30 { pkt0 with w4 := 7 }
     Arrives s p 0x30 ∧ (peerOf s p.src).nonce = p.w4.toNat % 2 ^ 32 ∧ (peerOf s p.src).silent = false ∧ Arrives s (pk 0x30 pkt0) 0x30 ∧
       (peerOf s 9).nonce ≠ (pk 0x30 pkt0).w4.toNat % 2 ^ 32 ∧ (peerOf s 9).heard = true) := by decide +kernel
theorem test_witness_PeersKnown_c :
    (let s := withPeer (reached [(K.SILENT_MASK 0, 2)] []) { peer9 with node := 0, silent := true }
     let p := sealHdr { pk 0x30 { pkt0 with w4 := 7 } with src := 0 }
     Arrives s p 0x30 ∧ (peerOf s p.src).nonce = p.w4.toNat % 2 ^ 32 ∧ (peerOf s p.src).silent = true ∧ (peerOf s p.src).restarted = false ∧
       rankAt s 0 p.src = some 1 ∧ (reg s (K.SILENT_MASK 0)).testBit 1 = true) := by decide +kernel
theorem test_witness_PeersKnown_d :
    (let s := withPeer (reached [] []) { peer9 with node := 0 }
     working s = true ∧ s.members.starting = [] ∧
       ((heartbeatUnion s).contains 0 && decide (reg s K.SILENCE_MISSES ≤ (peerOf s 0).misses) && !(peerOf s 0).silent) = true ∧ rankAt s 0 0 = some 1 ∧
       rankState s 0 1 ≠ 3 ∧ (reg s (K.SILENT_MASK 0)).testBit 1 = false ∧
       ((heartbeatUnion s).contains 5 && decide (reg s K.SILENCE_MISSES ≤ (peerOf s 5).misses) && !(peerOf s 5).silent) = false) := by decide +kernel
theorem test_witness_PeersKnown_e :
    Arrives (linked []) (pk 0x31 { pkt0 with w5 := BitVec.ofNat 64 0 }) 0x31 ∧ Arrives (linked []) (pk 0x31 { pkt0 with w5 := BitVec.ofNat 64 1 }) 0x31 ∧
      (linked []).members.starting = [] := by decide +kernel
theorem test_witness_PeersKnown_f :
    Arrives (linked []) (pk 0x32 pkt0) 0x32 := by decide +kernel
theorem test_witness_PeersKnown_g :
    (∀ l ∈ [[(9, 0, 0)], [(9, 0, 0), (9, 1, 0)]],
      let u := linked []
      let s := { u with barriers := { u.barriers with echoes := l } }
      let p := pk 0x33 pkt0
      Arrives s p 0x33 ∧ s.members.starting = [] ∧
        s.barriers.echoes.find? (fun e => decide (e.1 = p.src ∧ e.2.1 = p.w4.toNat % 65536)) = some (p.src, p.w4.toNat % 65536, 0) ∧
        s.barriers.echoes.all (fun e => decide (e.1 = p.src → e.2.1 = p.w4.toNat % 65536)) = decide (l.length = 1)) := by decide +kernel
/-- The arrival of a position at the seal barrier of step 0. -/
def arr (pos : Nat) : Arrival := { part := 0, kind := 1, epoch := 0, pos := pos, delay := 0 }
def arrived (s : State) (l : List Arrival) (sent : Bool) : State :=
  { s with barriers := { s.barriers with arrivals := l, sentUp := if sent then [(0, 1, 0)] else [] } }
theorem test_witness_TreeTraffic :
    (let s := treed 0 3 []
     let p := pk 0x34 { pkt0 with w4 := 1, w5 := 1 }
     TreeArrives s p 0x34 ∧ barrierKind p = 1 ∧ p.w5.toNat % 65536 ∈ childrenOf s 0 ∧ 1 ≠ reg s (K.BG_POSITION 0) ∧ arrivalAt s 0 1 0 1 = none ∧
       arrivalAt s 0 1 0 (reg s (K.BG_POSITION 0)) = none) ∧
    (let s := arrived (treed 0 2 []) [arr 0] false
     let p := pk 0x34 { pkt0 with w4 := 1, w5 := 1 }
     TreeArrives s p 0x34 ∧ 1 ∈ childrenOf s 0 ∧ arrivalAt s 0 1 0 1 = none ∧ (arrivalAt s 0 1 0 0).isSome = true ∧ (0, 1, 0) ∉ s.barriers.sentUp ∧
       (∀ c ∈ childrenOf s 0, c ≠ 1 → (arrivalAt s 0 1 0 c).isSome = true) ∧ reg s (K.BG_POSITION 0) = 0) ∧
    (let s := arrived (treed 1 18 []) [arr 1] false
     let p := pk 0x34 { pkt0 with w4 := 1, w5 := 17 }
     TreeArrives s p 0x34 ∧ 17 ∈ childrenOf s 0 ∧ arrivalAt s 0 1 0 17 = none ∧ (arrivalAt s 0 1 0 1).isSome = true ∧
       (∀ c ∈ childrenOf s 0, c ≠ 17 → (arrivalAt s 0 1 0 c).isSome = true) ∧ parentOf s 0 = some 0 ∧ positionNode s 0 0 = some 0) ∧
    (∀ d ∈ [0, 9],
      let u := arrived (treed 1 18 []) [arr 1] true
      let s := { u with barriers := { u.barriers with delays := [(9, d)] } }
      let p := pk 0x35 { pkt0 with w4 := 1, w5 := 5 }
      TreeArrives s p 0x35 ∧ barrierKind p = 1 ∧ (0, 1, 0) ∈ s.barriers.sentUp ∧ s.barriers.down = [] ∧ s.mixer.released = [] ∧
        (delayTo s p.src ≤ p.w5.toNat % 2 ^ 32 ↔ d = 0) ∧ reg s (K.EPOCH 0) = 0 ∧ reg s (K.STEP_PHASE 0) ≠ 6) := by
  refine ⟨by decide +kernel, by decide +kernel, by decide +kernel, by decide +kernel⟩
/-- A broadcast below the root of two tiles to names 0 and 1, `low` of them written. -/
def bc (low : Nat) : Bcast :=
  { part := 0, job := 0, isRoot := false, src := 0, count := some 2, dst := 0, low := low, seen := [], childLow := [], childNext := [], childDone := [],
    doneSent := false, rootLost := false }
def running (b : Bcast) : State := { treed 1 18 [(K.BCAST_STATUS 0, 1), (K.FP_LEVEL 0, 4)] with bcasts := [b], mem := mem0 }
def tile0 : Packet := { pk 0x36 { pkt0 with whole := true, lines := 64, payload := zeroLines } with level := 4 }
theorem tile0_tile : bcastTile (sealHdr tile0) (sealHdr tile0).payload = { zt 0 with info := { (zt 0).info with valid := 0 } } := by
  have h : (sealHdr tile0).payload = zeroLines := rfl
  unfold bcastTile
  rw [h, zeroLines_data, zeroLines_bad]
  dsimp only
  rw [zt_crc]
  exact congrArg (Tile.mk (zeros 4096)) (by decide +kernel)
theorem test_witness_TreeTraffic_broadcast :
    (let s := treed 1 2 []
     let p := sealHdr tile0
     TreeArrives s p 0x36 ∧ p.level = 4 ∧ p.payload.length = 64 ∧ p.w5.toNat % 2 ^ 32 = 0 ∧ bcastOf s 0 = none ∧ childrenOf s 0 = [] ∧ WritesYard s 0 0 8) ∧
    SoundTile (bcastTile (sealHdr tile0) (sealHdr tile0).payload) ∧
    (let s := running (bc 1)
     let p := sealHdr tile0
     TreeArrives s p 0x36 ∧ bcastOf s 0 = some (bc 1) ∧ (bc 1).job = p.w4.toNat % 2 ^ 32 ∧ (bc 1).rootLost = false ∧ p.w5.toNat % 2 ^ 32 < (bc 1).low) ∧
    (∀ l ∈ [0, 1],
      let s := running (bc l)
      let p := pk 0x37 { pkt0 with w6 := 17 }
      TreeArrives s p 0x37 ∧ bcastRuns s 0 = some (bc l) ∧ (bc l).job = p.w4.toNat % 2 ^ 32 ∧ childrenOf s 0 = [p.w6.toNat % 65536] ∧ (bc l).isRoot = false ∧
        (bc l).count ≠ some (bc l).low ∧ (bc l).low = max (p.w5.toNat % 2 ^ 32) (min ((smapGet (bc l).childNext 17).getD 0) (p.w5.toNat % 2 ^ 32 + 4096)) + l ∧ reg s (K.FP_LEVEL 0) = 4 ∧
        positionNode s 0 17 = some 0) ∧
    ReadsYard (running (bc 1)) 0 0 (zt 1) ∧
    (∀ l ∈ [1, 2],
      let s := running (bc l)
      let p := pk 0x38 { pkt0 with w6 := 17 }
      TreeArrives s p 0x38 ∧ bcastRuns s 0 = some (bc l) ∧ (bc l).job = p.w4.toNat % 2 ^ 32 ∧ childrenOf s 0 = [p.w6.toNat % 65536] ∧ (bc l).doneSent = false ∧
        ((bc l).count = some (bc l).low ↔ l = 2) ∧ parentOf s 0 = some 0 ∧ positionNode s 0 0 = some 0) := by
  refine ⟨by decide +kernel, ?_, by decide +kernel, by decide +kernel,
    readsY _ 0 0 8 1 (by decide +kernel) (by decide +kernel) (by decide +kernel) (by decide +kernel) (yard8 _ rfl), by decide +kernel⟩
  rw [tile0_tile]; exact ⟨by simp [zt, zeros], by decide, by decide, rfl, zt_crc⟩

/-! Witnesses: the wythe's packets. -/
/-- A block at the fabric, in the wythe of `wythed`. -/
def onFabric (l : List (Nat × Nat)) : State := wythed (l ++ [(K.ALIGN_STATUS, 131073), (K.FP_NODE_ID, 1)]) []
/-- A wythe packet from rank 1 of a kind, with a code, for a course, of a length, at an epoch. -/
def wyPk (type kind code course len epoch : Nat) (l : List Line) : Packet :=
  pk type { pkt0 with lines := l.length, payload := l, w4 := BitVec.ofNat 64 (2 ^ 32 + kind * 2 ^ 37 + code * 2 ^ 40),
                      w5 := BitVec.ofNat 64 (course + len * 2 ^ 44), w6 := BitVec.ofNat 64 epoch }
/-- The tile of a header of this block's row of course 0, of coded (0) or gradient (1) mortar, with a mask of ranks applied. -/
def headTile (kind applied c : Nat) : Tile :=
  dataTile (natLe 8 (2 * 2 ^ 32 + 2 ^ 37 + (kind + 1) * 2 ^ 48) ++ zeros 16 ++ natLe 8 applied ++ zeros 28 ++ natLe 4 c) 310242428
def heads : List Tile := [headTile 0 2 2544780002, headTile 0 0 4030150042, headTile 1 2 2291702041, headTile 1 0 4009881185]
/-- A slot that was written over keeps the rest of the yard as it was. -/
theorem yardKeep (s t : State) (k j : Nat) (v w : Tile) (hm : t.mem = putBytes (putBytes s.mem (yardAddr k 0) w.data) (yardMetaAddr k + yardMetaOff k) (metaBytes w.info))
    (hk : k < 522240) (hj : j < 522240) (hne : j ≠ k) (hl : w.data.length = 4096) (h : YardTile s j v) : YardTile t j v := by
  have keep : ∀ a, (a < yardAddr k 0 ∨ yardAddr k 0 + 4096 ≤ a) → (a < yardMetaAddr k + yardMetaOff k ∨ yardMetaAddr k + yardMetaOff k + 16 ≤ a) →
      readByte t.mem a = readByte s.mem a := fun a h1 h2 => by
    rw [hm, readByte_putBytes_out _ _ _ _ (by rw [show (metaBytes w.info).length = 16 from rfl]; exact h2), readByte_putBytes_out _ _ _ _ (by rw [hl]; exact h1)]
  have same : ∀ a n, (∀ i, i < n → readByte t.mem (a + i) = readByte s.mem (a + i)) → readBytes t.mem a n = readBytes s.mem a n := fun a n h => by
    unfold readBytes
    exact List.map_congr_left fun i hi => h i (List.mem_range.mp hi)
  have mark : ∀ a, markOf t.mem a = markOf s.mem a := fun a => by
    rw [hm]
    rfl
  obtain ⟨h1, h2, h3, h4, h5, h6⟩ := h
  refine ⟨?_, ?_, h3, h4, fun i hi => by rw [mark]; exact h5 i hi, by rw [mark]; exact h6⟩
  · rw [same _ _ (fun i hi => keep _ (by unfold yardAddr; omega) (by unfold yardAddr yardMetaAddr yardMetaOff; omega))]; exact h1
  · rw [same _ _ (fun i hi => keep _ (by unfold yardAddr yardMetaAddr yardMetaOff; omega) (by unfold yardMetaAddr yardMetaOff; omega))]; exact h2
/-- A slot written over a memory without marks holds its tile whole. -/
theorem yardOn (s : State) (m : Memory) (k : Nat) (v : Tile) (hm : s.mem = putBytes (putBytes m (yardAddr k 0) v.data) (yardMetaAddr k + yardMetaOff k) (metaBytes v.info))
    (hk : k < 522240) (hz : m.marks = []) (hl : v.data.length = 4096) (hp : v.info.poison = 0) (hi : metaOf (metaBytes v.info) = v.info)
    (hc : crc32c v.data = v.info.crc.toNat) : YardTile s k v := by
  have hb : (metaBytes v.info).length = 16 := rfl
  have lt : ∀ i, i < 4096 → yardAddr k 0 + i < yardMetaAddr k + yardMetaOff k := fun i hi => by unfold yardAddr yardMetaAddr yardMetaOff; omega
  have hd : readBytes s.mem (yardAddr k 0) 4096 = v.data := by
    unfold readBytes
    refine List.ext_getElem (by simp [hl]) fun i h1 h2 => ?_
    simp only [List.getElem_map, List.getElem_range]
    rw [hm, readByte_putBytes_out _ _ _ _ (.inl (lt i (by omega))), readByte_putBytes_in _ _ _ i h2]
  have hx : readBytes s.mem (yardMetaAddr k + yardMetaOff k) 16 = metaBytes v.info := by
    unfold readBytes
    refine List.ext_getElem (by simp [hb]) fun i h1 h2 => ?_
    simp only [List.getElem_map, List.getElem_range]
    rw [hm, readByte_putBytes_in _ _ _ i h2]
  have mark : ∀ a, a < stackBase → markOf s.mem a = 0 := fun a ha => by
    rw [hm]
    show (match smapGet m.marks (a / 64) with | some w => w | none => if a < stackBase then 0 else Config.freeStackMark m.gen (a / 64)) = 0
    rw [hz]
    simp [smapGet, ha]
  exact ⟨hd.symm, by rw [hx]; exact hi.symm, hp, hc, fun j _ => mark _ (by unfold yardAddr stackBase; omega), mark _ (by unfold yardMetaAddr stackBase; omega)⟩
/-- The block with its own bricks of courses 0 in slots 32 to 47 and their headers in slot 48. -/
def holding (v : Tile) : State :=
  let s := withHomes (onFabric []) ((List.range 128).map (fun i =>
    (if 16 ≤ i ∧ i < 32 then 16 + i else if 64 ≤ i ∧ i < 80 then i - 32 else if i = 112 ∨ i = 113 then 48 else 8) * 65536))
  { s with mem := putBytes (putBytes mem0 (yardAddr 48 0) v.data) (yardMetaAddr 48 + yardMetaOff 48) (metaBytes v.info) }
theorem heads_whole : ∀ v ∈ heads, YardTile (holding v) 48 v ∧ ∀ i, i < 16 → YardTile (holding v) (32 + i) (zt 1) := by
  intro v hv
  have hl : v.data.length = 4096 := by revert v; decide +kernel
  refine ⟨yardOn _ mem0 48 v rfl (by decide) rfl hl (by revert v; decide) (by revert v; decide) (by revert v; decide +kernel), fun i hi => ?_⟩
  refine yardKeep { onFabric [] with mem := mem0 } _ 48 _ _ v rfl (by decide) (by omega) (by omega) hl ?_
  exact yard0 _ rfl _ 1 (by omega) (by revert i; decide +kernel)
theorem test_witness_BricksTaken :
    (∀ kind ∈ [0, 1],
      let s := onFabric []
      let p := wyPk 0x10 kind 0 0 64 0 [{ bytes := zeros 64, mark := poisonMark }]
      WytheArrives s p 0x10 ∧ wyKind p = kind ∧ NothingWakes s 0 ∧ ceilDiv (wyLength p) 64 ≤ fragLines p.level ∧ p.payload.length = ceilDiv (wyLength p) 64 ∧
        lineBad p.payload ≠ []) ∧
    (∀ kind ∈ [0, 1], ∀ c ∈ [1, 3],
      let s := onFabric []
      let p := wyPk 0x10 kind 0 c 0 0 []
      WytheArrives s p 0x10 ∧ wyKind p = kind ∧ OneFragment p (ceilDiv (wyLength p) 64) ∧
        (3 ≤ wyCourse p ∨ isData s 0 (courseFor s 0 kind (wyCourse p)) (wyRank p) = false ∨ rowOf s 0 (courseFor s 0 kind (wyCourse p)) (ownRank s 0) = none)) ∧
    (∀ n ∈ [0, 1, 2, 3],
      let v := (heads[n]?).getD (zt 0)
      let s := holding v
      let kind := n / 2
      let p := wyPk 0x10 kind 0 0 0 0 []
      let c := courseFor s 0 kind (wyCourse p)
      WytheArrives s p 0x10 ∧ wyKind p = kind ∧ NothingWakes s 0 ∧ OneFragment p (ceilDiv (wyLength p) 64) ∧ wyCourse p < 3 ∧ isData s 0 c (wyRank p) = true ∧
        rowOf s 0 c (ownRank s 0) = some 0 ∧ unpackBrick ((lineData p.payload).take (wyLength p)) = some (List.replicate 16 (zeros 4096)) ∧ (encodeAt s 0 c).isNone = true ∧ (openRepair s 0 c (ownRank s 0)).isNone = true ∧
        s.mixer.held = []) ∧
    (∀ n ∈ [0, 1, 2, 3],
      let v := (heads[n]?).getD (zt 0)
      let s := holding v
      let p := wyPk 0x10 (n / 2) 0 0 0 0 []
      let c := courseFor s 0 (n / 2) (wyCourse p)
      let h := headerOf (bytesAt v.data (headerOff s 0 c) 64)
      homeOf s 0 (headerName s 0 c) = .yard 48 ∧ headerUsable s 0 c h = true ∧ headerAgrees s 0 c h = true ∧
        ¬ epochRank (wyEpoch p) < epochRank h.epoch ∧ h.mapEpoch = reg s (K.MAP_EPOCH 0) ∧ h.epoch = wyEpoch p ∧ h.applied.testBit (wyRank p) = decide (n % 2 = 0) ∧
        reg s K.MIX_MODE ≠ 2 ∧ reg s K.FLIP_STATE ≠ 1 ∧ s.safety.lanes = [] ∧ brickMoving s 0 c = false ∧
        ∀ i, i < 16 → homeOf s 0 (brickName s 0 c + i) = .yard (32 + i)) ∧
    (∀ v ∈ heads, YardTile (holding v) 48 v ∧ ∀ i, i < 16 → YardTile (holding v) (32 + i) (zt 1)) :=
  ⟨by decide +kernel, by decide +kernel, by decide +kernel, by decide +kernel, heads_whole⟩
theorem test_witness_WythePackets :
    (∀ code ∈ [0, 1, 2],
      let u := onFabric []
      let s := { u with mixer := { u.mixer with kept := [kept4] } }
      let p := wyPk 0x11 1 code 1 0 0 []
      WytheArrives s p 0x11 ∧ NothingWakes s 0 ∧ wyKind p = 1 ∧ findKept s 0 1 (courseFor s 0 (wyKind p) (wyCourse p)) (wyEpoch p) = some kept4 ∧
        (∀ y ∈ s.mixer.kept, sameKept y kept4 = true → y = kept4) ∧ wyCode p = code ∧ kept4.owed = [wyRank p]) ∧
    (let u := onFabric []
     let s := { u with mixer := { u.mixer with doneSeal := [0] } }
     let p := wyPk 0x12 1 0 1 0 0 []
     let g := courseFor s 0 1 (wyCourse p)
     WytheArrives s p 0x12 ∧ wyEpoch p = reg s (K.EPOCH 0) ∧ wyCourse p < gradCourses s 0 ∧ isData s 0 g (ownRank s 0) = true ∧
       (rowOf s 0 g (wyRank p)).isSome = true ∧ sealPending s 0 g = false ∧ findKept s 0 1 g (wyEpoch p) = none ∧
       ∀ i, i < 16 → homeOf s 0 (brickName s 0 g + i) = .yard 8) ∧
    (let s := onFabric []
     WytheArrives s (wyPk 0x13 0 0 3 0 0 []) 0x13 ∧ codedCourses s 0 ≤ wyCourse (wyPk 0x13 0 0 3 0 0 [])) ∧
    (let s := { linked [(K.EPOCH 0, 5)] with pins := (onFabric []).pins }
     let p := wyPk 0x13 0 0 1 0 4 []
     WytheArrives s p 0x13 ∧ wyCourse p < codedCourses s 0 ∧ isData s 0 (wyCourse p) (ownRank s 0) = true ∧ wyEpoch p < reg s (K.EPOCH 0) ∧
       RankReached s 0 (wyRank p) 256) ∧
    (let s := onFabric []
     let p := wyPk 0x13 0 0 1 0 0 []
     WytheArrives s p 0x13 ∧ wyCourse p < codedCourses s 0 ∧ isData s 0 (wyCourse p) (ownRank s 0) = true ∧ reg s (K.EPOCH 0) ≤ wyEpoch p ∧
       unbuilt s 0 (wyCourse p) = false ∧ ∀ i, i < 16 → homeOf s 0 (brickName s 0 (wyCourse p) + i) = .yard 8) ∧
    (let x : Encode := { part := 0, course := 0, epoch := 0, owed := [1, 2], sid := none, begun := true, stopped := false }
     let u := onFabric []
     let s := { u with mixer := { u.mixer with encodes := [x] } }
     let p := wyPk 0x14 0 0 0 0 0 []
     WytheArrives s p 0x14 ∧ encodeAt s 0 (wyCourse p) = some x ∧ x.epoch = wyEpoch p ∧ x.stopped = false) ∧
    (∀ e ∈ [0, 5],
      let s := onFabric [(K.EPOCH 0, e)]
      let p := wyPk 0x15 0 0 0 0 0 [{ bytes := zeros 64, mark := 0 }]
      WytheArrives s p 0x15 ∧ NothingWakes s 0 ∧ lineBad p.payload = [] ∧ (reg s (K.EPOCH 0) ≤ wyEpoch p ↔ e = 0)) ∧
    (let s := rankSet (onFabric []) [0, 2, 0]
     let p := wyPk 0x19 0 0 0 0 0 []
     WytheArrives s p 0x19 ∧ rankState s 0 (wyRank p) = 2 ∧ wyKind p = 0 ∧ wyCourse p = 0) ∧
    (∀ s : State, s.mem = mem0 → YardTile s 8 (zt 1)) :=
  ⟨by decide +kernel, by decide +kernel, by decide +kernel, by decide +kernel, by decide +kernel, by decide +kernel, by decide +kernel, by decide +kernel, yard8⟩
/-- Clean lines of zeros. -/
def cleanLines (n : Nat) : List Line := List.replicate n { bytes := zeros 64, mark := 0 }
theorem cleanLines_bad (n : Nat) : lineBad (cleanLines n) = [] := by
  unfold lineBad cleanLines
  refine List.filter_eq_nil_iff.mpr fun i hi => ?_
  rw [List.length_replicate, List.mem_range] at hi
  rw [List.getElem?_replicate, if_pos hi]
  simp [lineAfter, lineOutcome]
theorem cleanLines_data (n : Nat) : lineData (cleanLines n) = zeros (64 * n) := by
  unfold lineData cleanLines
  rw [List.map_replicate, show lineAfter (zeros 64) 0 = (zeros 64, 0) by simp [lineAfter, lineOutcome], zeros, List.flatten_replicate_replicate, Nat.mul_comm]; rfl
/-- A sum of line 0 of each tile of course 1 for rank 2, from a position. -/
def sumPk (pos : Nat) : Packet :=
  sealHdr { wyPk 0x17 0 0 1 0 1 (cleanLines 17) with level := 4, w4 := BitVec.ofNat 64 (2 ^ 32 + 2 * 2 ^ 37), w5 := BitVec.ofNat 64 (1 + pos * 2 ^ 44) }
def planB : Plan := { solved := [2], rows := [0], tree := [1, 0], others := [] }
theorem test_witness_RepairTree :
    (∀ pos ∈ [0, 1],
      let s := rankSet (onFabric []) [0, 0, 1]
      let p := sumPk pos
      WytheArrives s p 0x17 ∧ p.w6.toNat = 1 ∧ maskLines 1 + 1 ≤ fragLines p.level ∧ bits p.w5.toNat 50 44 = pos ∧ NothingWakes s 0 ∧ s.contribs = [] ∧
        s.fabric.stalled = [] ∧ s.mixer.held = []) ∧
    (∀ pos, (sumPk pos).payload = cleanLines 17 ∧ (sumPk pos).payload.length = 17 ∧ lineBad (sumPk pos).payload = []) ∧
    (let r := { rep1 false 2 with mask := 1 }
     let s := { rankSet (onFabric []) [0, 0, 1] with repairs := [r] }
     let p := sumPk 0
     wyCourse p = 1 ∧ bits p.w4.toNat 41 37 = 2 ∧ 2 ≠ ownRank s 0 ∧ rowOf s 0 1 2 = none ∧ openRepair s 0 1 2 = some r ∧ r.again = false ∧
       planFor s 0 1 2 r.rows r.trust r.extra = .made planB ∧ versionsOf s r planB (zeros (64 * 17)) = .agree) ∧
    lineData (sumPk 0).payload = zeros (64 * 17) ∧
    (let s := rankSet (onFabric []) [0, 0, 1]
     let p := sealHdr { wyPk 0x18 0 0 1 0 0 [] with w4 := BitVec.ofNat 64 (2 ^ 32 + 2 * 2 ^ 37 + 2 ^ 42), w5 := BitVec.ofNat 64 (1 + 2 ^ 44), w6 := BitVec.ofNat 64 1 }
     WytheArrives s p 0x18 ∧ wyCourse p < codedCourses s 0 ∧
       planDecode s 0 (wyCourse p) (bits p.w4.toNat 41 37) ((List.range 3).filter (fun j => p.w5.toNat.testBit (51 + j))) (p.w5.toNat.testBit 54)
         (if bits p.w5.toNat 60 55 = 0 then none else some (bits p.w5.toNat 60 55 - 1)) = .made planB ∧
       planB.tree[bits p.w5.toNat 50 44]? = some (ownRank s 0) ∧ childPositions (bits p.w5.toNat 50 44) planB.tree.length = [] ∧
       isData s 0 (wyCourse p) (ownRank s 0) = true ∧ unbuilt s 0 (wyCourse p) = false ∧ reg s K.RPT_MODE ≠ 2 ∧ s.safety.lanes = [] ∧ NothingWakes s 0 ∧
       (planB.tree[1 - lowBit 1]?).getD (wyRank p) ≠ ownRank s 0 ∧ ∀ i, i < 16 → homeOf s 0 (brickName s 0 (wyCourse p) + i) = .yard 8) ∧
    (∀ s : State, s.mem = mem0 → YardTile s 8 (zt 1)) :=
  ⟨by decide +kernel, fun pos => ⟨rfl, rfl, cleanLines_bad 17⟩, by decide +kernel, cleanLines_data 17, by decide +kernel, yard8⟩

/-! Witnesses: reduction packets. -/
/-- A reduction packet of rank 1 for tag 0 at epoch 0. -/
def rdPk (type group level : Nat) (w6 : Nat) (l : List Line) : Packet :=
  sealHdr { pk type { pkt0 with lines := l.length, payload := l, w4 := BitVec.ofNat 64 (2 ^ 48 + group), w6 := BitVec.ofNat 64 w6 } with level := level }
/-- Rank `me` of a group of two at the fabric, rank 1 by window 0 in its tables at names 4 and 5. -/
def rdGroup (me : Nat) (ls : List Layer) (rs : List RdxRun) (xs : List Stream) : State :=
  let s := layered [(K.RG_STATE 0, 1), (K.RG_SIZE 0, 2), (K.RG_RANK 0, me), (K.RDX_NORM_MODE, 1), (K.RDX_MODE, 1), (K.ALIGN_STATUS, 131073),
    (K.FP_NODE_ID, 1), (K.RG_TABLE 0, 4), (K.WIN_TABLE 0, 5)] ls (strm 7 (desc 0))
  { withStreams s xs with rdx := { s.rdx with runs := rs }, mem := { cells := [(81929, 1), (86020, 0x80)], marks := [], gen := 0 } }
/-- What the statement asks of the run and the stream that a packet names. -/
abbrev Named (s : State) (p : Packet) (r : RdxRun) (x : Stream) : Prop :=
  reg s (K.RG_STATE 0) = 1 ∧ p.w4.toNat % 2 ^ 32 = reg s (K.RG_GROUP_ID 0) ∧ p.mapEpoch = reg s (K.MAP_EPOCH 0) ∧ runOf s 0 (rdxTag p) (rdxEpoch p) = some r ∧
  findRun s r.sid = some r ∧ findStream s r.sid = some x ∧ x.d.part = 0 ∧ x.taken = true ∧ x.unacked = 0 ∧ x.closing = false ∧ x.finish = none
abbrev Same (p : Packet) (r : RdxRun) (x : Stream) : Prop :=
  p.partition = 0 ∧ rdxEpoch p = r.epoch ∧ r.op = x.d.opcode ∧ r.desc = x.d ∧ r.left = false ∧ r.layer = none
def reducing : Stream := strm 7 { desc 0x50 with hops := [8, 3, 0, 0, 0, 0], count := 2 }
theorem test_witness_ReductionPackets :
    (let s := rdGroup 0 [] [] []
     (∀ ty ∈ [0x20, 0x21, 0x22, 0x23, 0x24], Arrives s (rdPk ty 5 3 0 []) ty ∧ (rdPk ty 5 3 0 []).w4.toNat % 2 ^ 32 ≠ reg s (K.RG_GROUP_ID 0)) ∧
     (∀ e ∈ [(0x20, 1), (0x22, 0), (0x23, 0), (0x24, 0)],
       let p := rdPk e.1 0 3 0 (List.replicate e.2 { bytes := zeros 64, mark := 0 })
       Arrives s p e.1 ∧ reg s (K.RG_STATE 0) = 1 ∧ p.w4.toNat % 2 ^ 32 = reg s (K.RG_GROUP_ID 0) ∧ p.mapEpoch = reg s (K.MAP_EPOCH 0) ∧ p.payload.length = e.2 ∧
         (runOf s 0 (rdxTag p) (rdxEpoch p)).isNone = true)) ∧
    (let x := reducing
     let r := run1 x 0x50 [] [] [] [] true
     let s := rdGroup 0 [lay 1] [r] [x]
     let p := rdPk 0x20 0 3 0 [{ bytes := zeros 64, mark := 0 }]
     Named s p r x ∧ Same p r x ∧ Arrives s p 0x20 ∧ p.payload.length = 1 ∧ openDiffers (openBytes s x) (lineData p.payload) = some 1) ∧
    (let x := reducing
     let r := run1 x 0x50 [] [] [] [] true
     let s := rdGroup 0 [lay 1] [r] [x]
     let a := rdPk 0x20 0 3 0 [{ bytes := openBytes s x, mark := 0 }]
     Named s a r x ∧ Same a r x ∧ Arrives s a 0x20 ∧ a.payload.length = 1 ∧ openDiffers (openBytes s x) (lineData a.payload) = none ∧
       layerOf s 0 x.d.src = some (lay 1) ∧ (lay 1).state ≠ 3 ∧ rankWindow s 0 (rdxRank a) = some 0 ∧ (windowOf s 0 0).valid = true ∧
       sendsHere s r (rdxRank a) = true ∧ sendsHere s r 0 = false) ∧
    (let x := reducing
     let r := run1 x 0x50 [] [] [] [] true
     let s := rdGroup 0 [lay 1] [r] [x]
     ∀ ty ∈ [0x22, 0x23],
       let p := rdPk ty 0 3 5 []
       Named s p r x ∧ Same p r x ∧ Arrives s p ty ∧ p.payload.length = 0) ∧
    (let x := strm 7 { desc 0x52 with hops := [3, 8, 1, 0, 0, 0], count := 2 }
     let r := run1 x 0x52 [] [] [] [] true
     let s := rdGroup 0 [] [r] [x]
     let p := rdPk 0x21 0 4 (2 ^ 40) (cleanLines 64)
     Named s p r x ∧ Same p r x ∧ Arrives s p 0x21 ∧ r.asked = true ∧ x.tilesDone = 0 ∧ bits p.w6.toNat 51 40 = 1 ∧ p.w6.toNat % 2 ^ 32 = 0 ∧
       segTiles x.d.count (groupN s 0) 1 0 = 1 ∧ 64 ≤ fragLines p.level ∧ edgesIn (groupN s 0) 1 (groupRank s 0) = [] ∧ r.shardsIn = [] ∧
       shardTiles x.d.count (groupN s 0) 0 ≠ 0) ∧
    ((rdPk 0x21 0 4 (2 ^ 40) (cleanLines 64)).payload.length = 64 ∧ lineBad (rdPk 0x21 0 4 (2 ^ 40) (cleanLines 64)).payload = []) ∧
    (let x := strm 7 { desc 0x53 with hops := [8, 1, 0, 0, 0, 0] }
     let r := { run1 x 0x53 [] [] [] [] false with started := true }
     let s := rdGroup 0 [] [r] [strm 6 (desc 0x51), x]
     let p := rdPk 0x24 0 3 0 []
     Named s p r x ∧ Same p r x ∧ Arrives s p 0x24 ∧ p.payload.length = 0 ∧ r.asked = false ∧ foldsPending s x = true) :=
  ⟨by decide +kernel, by decide +kernel, by decide +kernel, by decide +kernel, by decide +kernel, ⟨by decide, cleanLines_bad 64⟩, by decide +kernel⟩

/-! Results that the spec gives. -/
/-- R384's check value. -/
theorem test_crc32c : crc32c (ascii "123456789") = 0xE3069283 := by decide +kernel
/-- R127's check value. -/
theorem test_crc64 : crc64 (ascii "123456789") = 0x6C40DF5F0B497347 := by decide +kernel
/-- R240's table of generator coefficients, at indices 0, 8 and 24. -/
theorem test_coefficients :
    [0, 8, 24].map (genCoef 1) = [0x01, 0x1D, 0x8F] ∧ [0, 8, 24].map (genCoef 2) = [0x01, 0x4C, 0x46] ∧ genCoef 0 24 = 1 := by decide +kernel
/-- The worked example of a dispatch in 06_sieve_and_expert_exchange.md: four experts, two choices, a capacity of 3 in slots of 4 rows. -/
theorem test_dispatch_example :
    layoutFrom { planOf [] with cap := 3 } 4 4 [0, 1, 0, 2, 1, 0, 0, 2, 2, 0, 1, 2, 0, 1, 2, nullEntry] 4 0 16 [] =
      ([(0, 0), (1, 2), (2, 5), (16, 6), (17, 9), (18, 12), (4, 1), (5, 4), (6, 10), (20, 13), (8, 3), (9, 7), (10, 8), (24, 11), (25, 14)], 28) := by
  decide +kernel
/-- The example of 00_scope.md: an all-zero flip mask armed while it is armed receives 0x0800_0022. -/
theorem test_flip_example :
    (match exec (.flipStateArm .dmp) (managed [(K.FLIP_STATE, 1)]) with | .next t => decide (t.sdo = 0x08000022) | _ => false) = true := by decide +kernel

end Sys2Proof.Tests
end

section
/-! SUPPORT. A request to an entry that the manual does not define (R9): what answering a request of the dictionary can change, on DMP and in the
window, and that every way of asking meets the same abort code. -/
namespace Sys2Proof.Machine

/-! What a management request leaves alone. -/

theorem OnlyManaged.refl (s : State) : OnlyManaged s s := ⟨rfl, fun _ _ => rfl⟩

theorem OnlyManaged.trans {s t u : State} (h : OnlyManaged s t) (g : OnlyManaged t u) : OnlyManaged s u := by
  obtain ⟨h1, h2⟩ := h
  obtain ⟨g1, g2⟩ := g
  refine ⟨?_, fun k hk => (g2 k hk).trans (h2 k hk)⟩
  rw [g1, h1]

theorem OnlyManaged.mgmt (s : State) (m : Mgmt) : OnlyManaged s { s with mgmt := m } := ⟨rfl, fun _ _ => rfl⟩

theorem OnlyManaged.sdo (s : State) (e : Nat) : OnlyManaged s { s with sdo := e } := ⟨rfl, fun _ _ => rfl⟩

theorem OnlyManaged.bump (s : State) {k : Nat} (n : Nat) (h : stateKey k = false) : OnlyManaged s (bump s k n) := by
  obtain ⟨r, hr⟩ := bump_frame s k n
  exact ⟨by rw [hr], (OnlyStorage.bump s n h).2⟩

/-- What only the management side changed serves the same entries as before (R451). -/
theorem OnlyManaged.serves_eq {s t : State} (h : OnlyManaged s t) (path : Path) (write : Bool) (idx sub : Nat) :
    serves t path write idx sub = serves s path write idx sub := by
  obtain ⟨hframe, hreg⟩ := h
  have hmason : t.mason = s.mason := by rw [hframe]
  simp only [serves, hmason, hreg K.SAFE_STATE (by decide)]

/-- The queue and the pins are not the management side's. -/
theorem OnlyManaged.keep_eq {s t : State} (h : OnlyManaged s t) : keep s t = t :=
  Machine.keep_eq (by rw [h.1]) (by rw [h.1])

@[simp] theorem bump_mgmt (s : State) (k n : Nat) : (bump s k n).mgmt = s.mgmt := by
  obtain ⟨r, hr⟩ := bump_frame s k n; rw [hr]

@[simp] theorem bump_sdo (s : State) (k n : Nat) : (bump s k n).sdo = s.sdo := by
  obtain ⟨r, hr⟩ := bump_frame s k n; rw [hr]

/-! The records of a client (R444, R445). -/

/-- A client's records keep its number. -/
theorem clientOf_id (s : State) (c : Nat) : (clientOf s c).id = c := by
  unfold clientOf
  cases h : s.mgmt.clients.find? (fun x => decide (x.id = c)) with
  | none => rfl
  | some x => simpa using List.find?_some h

theorem clientOf_congr {s t : State} (h : t.mgmt.clients = s.mgmt.clients) (c : Nat) : clientOf t c = clientOf s c := by
  simp only [clientOf, h]

@[simp] theorem clientOf_bump (s : State) (k n c : Nat) : clientOf (bump s k n) c = clientOf s c := clientOf_congr (by rw [bump_mgmt]) c

@[simp] theorem putClient_waiting (s : State) (x : Client) : (putClient s x).mgmt.waiting = s.mgmt.waiting := rfl

/-- The client heard from last is found with the records it was kept with. -/
theorem clientOf_putClient_self (s : State) {x : Client} {c : Nat} (h : x.id = c) : clientOf (putClient s x) c = x := by
  simp [clientOf, putClient, h]

theorem clientOf_heard (s : State) (f : DmpFrame) : clientOf (heard s f) f.client = clientOf s f.client :=
  clientOf_putClient_self _ (clientOf_id s f.client)

theorem heard_onlyManaged (s : State) (f : DmpFrame) : OnlyManaged s (heard s f) :=
  (OnlyManaged.bump s 1 (by cases f.port <;> decide)).trans (.mgmt _ _)

@[simp] theorem heard_out (s : State) (f : DmpFrame) : (heard s f).mgmt.out = s.mgmt.out := by simp [heard, putClient]

/-! Sending a frame, and recording its number. -/

theorem sendFrame_onlyManaged (s : State) (o : DmpOut) : OnlyManaged s (sendFrame s o) := by
  unfold sendFrame
  dsimp only
  split_ifs
  · exact (OnlyManaged.mgmt s _).trans (.bump _ 1 (by decide))
  · exact .mgmt s _

@[simp] theorem sendFrame_mgmt (s : State) (o : DmpOut) : (sendFrame s o).mgmt = { s.mgmt with out := s.mgmt.out ++ [o] } := by
  unfold sendFrame
  dsimp only
  split_ifs
  · exact bump_mgmt _ _ _
  · rfl

theorem clientOf_sendFrame (s : State) (o : DmpOut) (c : Nat) : clientOf (sendFrame s o) c = clientOf s c := clientOf_congr (by simp) c

@[simp] theorem sendFrame_sdo (s : State) (o : DmpOut) : (sendFrame s o).sdo = s.sdo := by
  unfold sendFrame
  dsimp only
  split_ifs
  · exact bump_sdo _ _ _
  · rfl

theorem recordSeq_onlyManaged (s : State) (c seq : Nat) (o : Option DmpOut) : OnlyManaged s (recordSeq s c seq o) := .mgmt s _

@[simp] theorem recordSeq_out (s : State) (c seq : Nat) (o : Option DmpOut) : (recordSeq s c seq o).mgmt.out = s.mgmt.out := rfl

@[simp] theorem recordSeq_sdo (s : State) (c seq : Nat) (o : Option DmpOut) : (recordSeq s c seq o).sdo = s.sdo := rfl

/-- A number's record leaves the client's transfer as it is. -/
theorem recordSeq_xfer (s : State) (c seq : Nat) (o : Option DmpOut) :
    (clientOf (recordSeq s c seq o) c).xfer = (clientOf s c).xfer := by
  unfold recordSeq
  dsimp only
  rw [clientOf_putClient_self _ (by exact clientOf_id s c)]

theorem seqDiff_self (a : Nat) : seqDiff a a = 0 := by simp [seqDiff, signedOf]

/-- A number that is less than 64 behind another is not passed by it by more. -/
theorem seqDiff_swap_le {a b : Nat} (ha : a < 2 ^ 32) (hb : b < 2 ^ 32) (h : -64 < seqDiff a b) : seqDiff b a ≤ 64 := by
  simp only [seqDiff, signedOf] at h ⊢
  split_ifs at h ⊢ <;> omega

/-- A request's answer is among its client's records afterwards: its number is the client's highest, or lies within the 64 before it (R444). -/
theorem recordSeq_recorded (s : State) {c seq : Nat} (o : DmpOut) (hseq : seq < 2 ^ 32) (hhigh : (clientOf s c).highest < 2 ^ 32)
    (hnear : (clientOf s c).answers = [] ∨ -64 < seqDiff seq (clientOf s c).highest) :
    (seq, o) ∈ (clientOf (recordSeq s c seq (some o)) c).answers := by
  unfold recordSeq
  dsimp only
  rw [clientOf_putClient_self _ (by exact clientOf_id s c)]
  refine List.mem_filter.2 ⟨List.mem_cons_self, ?_⟩
  rw [decide_eq_true_eq]
  split_ifs with hnew
  · rw [seqDiff_self]; decide
  · exact seqDiff_swap_le hseq hhigh (hnear.resolve_left fun hnone => hnew (.inl hnone))

/-! A DMP request that is new to the block. -/

/-- Every DMP command is its frame taken with the command's type. -/
theorem exec_dmpCommand {f : DmpFrame} {p : Instr × Nat} (h : p ∈ dmpCommands f) (s : State) :
    exec p.1 s = whenAlive s (takeFrame s f p.2) := by
  simp only [dmpCommands, List.mem_cons, List.not_mem_nil, or_false] at h
  rcases h with rfl | rfl | rfl | rfl | rfl | rfl <;> rfl

theorem readCommands_subset (f : DmpFrame) : [(Instr.readReq f, 0x01), (.describe f, 0x06), (.segRead f, 0x05)] ⊆ dmpCommands f := by
  simp [dmpCommands]

theorem writeCommands_subset (f : DmpFrame) : [(Instr.writeExp f, 0x02), (.writeInit f, 0x03), (.segment f, 0x04)] ⊆ dmpCommands f := by
  simp [dmpCommands]

/-- A new request is carried out in the state that has heard it; its response is sent and recorded. -/
theorem takeFrame_fresh {s u : State} {f : DmpFrame} {type : Nat} {o : DmpOut} (h : FrameFresh s f type)
    (he : executeFrame (heard s f) f type = (u, some o)) :
    takeFrame s f type = recordSeq (sendFrame u o) f.client f.seq (some o) := by
  obtain ⟨-, hup, hok, -, -, hnew, hnear, hwait⟩ := h
  have hfind : (clientOf s f.client).answers.find? (fun a => decide (a.1 = f.seq)) = none := by
    simpa [List.find?_eq_none] using hnew
  have hstale : ¬ ((clientOf s f.client).answers ≠ [] ∧ seqDiff f.seq (clientOf s f.client).highest ≤ -64) := by
    rintro ⟨hsome, hold⟩
    have := hnear.resolve_left hsome
    omega
  have hany : s.mgmt.waiting.any (fun w => decide (w.1 = f.seq ∧ w.2.client = f.client)) = false := by
    simpa using hwait
  unfold takeFrame
  simp only [hup, hok, clientOf_bump, hfind, putClient_waiting, bump_mgmt, Bool.not_true, Bool.false_eq_true, if_false, if_neg hstale, hany]
  split
  next w answer hrun => cases he.symm.trans hrun; rfl
  next w hrun => cases he.symm.trans hrun

/-- The response of a new request is sent and recorded, where carrying it out left the responses and its client's numbers as they were. -/
theorem answered_of_sent {s u : State} {f : DmpFrame} {type : Nat} (o : DmpOut) (h : FrameFresh s f type) (hu : OnlyManaged s u)
    (hout : u.mgmt.out = s.mgmt.out) (hhigh : (clientOf u f.client).highest = (clientOf s f.client).highest)
    (has : (clientOf u f.client).answers = (clientOf s f.client).answers) :
    Answered s (recordSeq (sendFrame u o) f.client f.seq (some o)) f o := by
  obtain ⟨-, -, -, hseq, hbound, -, hnear, -⟩ := h
  refine ⟨(hu.trans (sendFrame_onlyManaged u o)).trans (recordSeq_onlyManaged _ _ _ _), by simp [hout], recordSeq_recorded _ o hseq ?_ ?_⟩
  · rwa [clientOf_sendFrame, hhigh]
  · rwa [clientOf_sendFrame, hhigh, has]

/-- A new request that is refused has no effect but its abort, which is sent and recorded; its client's transfer stays as it was. -/
theorem exec_dmpCommand_abort {s : State} {f : DmpFrame} {p : Instr × Nat} {e : Nat} (hp : p ∈ dmpCommands f) (h : FrameFresh s f p.2)
    (he : executeFrame (heard s f) f p.2 = ({ heard s f with sdo := e }, some (abortTo f e))) :
    ∃ t, exec p.1 s = .next t ∧ t.sdo = e ∧ Answered s t f (abortTo f e) ∧ (clientOf t f.client).xfer = (clientOf s f.client).xfer := by
  have hclient : clientOf { heard s f with sdo := e } f.client = clientOf s f.client := clientOf_heard s f
  have hans := answered_of_sent (abortTo f e) h ((heard_onlyManaged s f).trans (.sdo _ e)) (heard_out s f) (by rw [hclient]) (by rw [hclient])
  refine ⟨_, ?_, ?_, hans, ?_⟩
  · rw [exec_dmpCommand hp, whenAlive_on h.1, takeFrame_fresh h he, hans.1.keep_eq]
  · simp
  · rw [recordSeq_xfer, clientOf_sendFrame, hclient]

/-! The window (R449, R450). -/

/-- A submission that is taken runs. -/
theorem submit_free {s : State} (h : WindowFree s) (go : State → State) : submit s go = go s := by
  obtain ⟨-, hup, hbusy⟩ := h
  simp [submit, hup, hbusy]

theorem windowAnswer_onlyManaged (s : State) (status total : Nat) (data : List Byte) (wseq : Nat) :
    OnlyManaged s (windowAnswer s status total data wseq) :=
  ((OnlyManaged.sdo s status).trans (.mgmt _ _)).trans (.bump _ 1 (by decide))

@[simp] theorem windowAnswer_mgmt (s : State) (status total : Nat) (data : List Byte) (wseq : Nat) :
    (windowAnswer s status total data wseq).mgmt =
      { s.mgmt with answer := { status := status, bytes := data.length, total := total, data := data, wseq := wseq }, busy := none } :=
  bump_mgmt _ _ _

@[simp] theorem windowAnswer_sdo (s : State) (status total : Nat) (data : List Byte) (wseq : Nat) :
    (windowAnswer s status total data wseq).sdo = status := bump_sdo _ _ _

theorem windowAnswer_shows (s : State) (status total : Nat) (data : List Byte) (wseq : Nat) :
    WindowShows s (windowAnswer s status total data wseq) status total data wseq :=
  ⟨windowAnswer_onlyManaged s status total data wseq, by simp, by simp, by simp, by simp, by simp⟩

/-- A submission that only answers shows its answer, and leaves the window's transfer as it was. -/
theorem submit_answers {s : State} {go : State → State} {status total : Nat} {data : List Byte} {wseq : Nat} (h : WindowFree s)
    (hgo : go s = windowAnswer s status total data wseq) :
    ∃ t, whenAlive s (submit s go) = .next t ∧ WindowShows s t status total data wseq ∧ t.mgmt.winXfer = s.mgmt.winXfer := by
  refine ⟨windowAnswer s status total data wseq, ?_, windowAnswer_shows .., by simp⟩
  rw [submit_free h, hgo, whenAlive_on h.1, (windowAnswer_onlyManaged s status total data wseq).keep_eq]

/-! What refuses an entry that is not defined. -/

section Undefined
variable {s : State} {path : Path} {idx sub : Nat} (hrow : dictRow idx sub = none)
include hrow

theorem dictRead_undefined (hs : serves s path false idx sub = true) : dictRead s path idx sub = .error 0x06020000 := by
  simp [dictRead, hs, hrow]

theorem dictDescribe_undefined (hs : serves s path false idx sub = true) : dictDescribe s path idx sub = .error 0x06020000 := by
  simp [dictDescribe, hs, hrow]

theorem entryGate_undefined {write : Bool} (hs : serves s path write idx sub = true) : entryGate s path write idx sub = 0x06020000 := by
  simp [entryGate, hs, hrow]

theorem writeGate_undefined (hs : serves s path true idx sub = true) (n : Nat) : writeGate s path idx sub n = 0x06020000 := by
  simp [writeGate, hs, hrow]

theorem dictWrite_undefined (hs : serves s path true idx sub = true) (b : List Byte) : dictWrite s path idx sub b = (s, 0x06020000) := by
  simp [dictWrite, writeGate_undefined hrow hs]

/-- At any offset a window read answers the abort code alone. -/
theorem winReadRun_undefined (hs : serves s .ep false idx sub = true) (length offset wseq : Nat) :
    winReadRun idx sub length offset wseq s = windowAnswer s 0x06020000 0 [] wseq := by
  by_cases h0 : offset = 0
  · simp [winReadRun, h0, dictRead_undefined hrow hs]
  · simp [winReadRun, h0, entryGate_undefined hrow hs]

theorem winWriteRun_undefined (hs : serves s .ep true idx sub = true) (offset total : Nat) (data : List Byte) (wseq : Nat) :
    winWriteRun idx sub offset total data wseq s = windowAnswer s 0x06020000 0 [] wseq := by
  simp [winWriteRun, entryGate_undefined hrow hs]

theorem winDescribeRun_undefined (hs : serves s .ep false idx sub = true) (wseq : Nat) :
    winDescribeRun idx sub wseq s = windowAnswer s 0x06020000 0 [] wseq := by
  simp [winDescribeRun, dictDescribe_undefined hrow hs]

end Undefined

section UndefinedFrame
variable {s : State} {f : DmpFrame} (hrow : dictRow f.index f.sub = none)
include hrow

/-- The three requests that read an entry meet the same abort. -/
theorem executeFrame_undefined_read {type : Nat} (hs : serves s .dmp false f.index f.sub = true) (ht : type ∈ [0x01, 0x06, 0x05]) :
    executeFrame s f type = ({ s with sdo := 0x06020000 }, some (abortTo f 0x06020000)) := by
  simp only [List.mem_cons, List.not_mem_nil, or_false] at ht
  rcases ht with rfl | rfl | rfl
  · simp [executeFrame, readFrame, dictRead_undefined hrow hs]
  · simp [executeFrame, describeFrame, dictDescribe_undefined hrow hs]
  · simp [executeFrame, segReadFrame, entryGate_undefined hrow hs]

/-- And so do the three that write one. -/
theorem executeFrame_undefined_write {type : Nat} (hs : serves s .dmp true f.index f.sub = true) (ht : type ∈ [0x02, 0x03, 0x04]) :
    executeFrame s f type = ({ s with sdo := 0x06020000 }, some (abortTo f 0x06020000)) := by
  simp only [List.mem_cons, List.not_mem_nil, or_false] at ht
  rcases ht with rfl | rfl | rfl
  · simp [executeFrame, writeFrame, dictWrite_undefined hrow hs]
  · simp [executeFrame, initFrame, writeGate_undefined hrow hs, entryGate_undefined hrow hs]
  · simp [executeFrame, segmentFrame, entryGate_undefined hrow hs]

end UndefinedFrame

/-- A write of an undefined entry by either path sets the abort code and nothing else. -/
theorem exec_dictWrite_undefined {s : State} {path : Path} {idx sub : Nat} (hrow : dictRow idx sub = none) (ha : alive s = true)
    (hup : dictUp s path = true) (hs : serves s path true idx sub = true) (value : List Byte) :
    exec (.dictWrite path idx sub value) s = .next { s with sdo := 0x06020000 } := by
  have hw : writeBy s path idx sub value = { s with sdo := 0x06020000 } := by
    simp [writeBy, hup, dictWrite_undefined hrow hs]
  show whenAlive s (writeBy s path idx sub value) = _
  rw [hw, whenAlive_on ha, (OnlyManaged.sdo s _).keep_eq]

/-- Settles O40: every request meets the refusal of an undefined entry before it reaches an effect of its own, so that only the
answer is left. -/
theorem undefinedEntry : Obligations.UndefinedEntry := by
  unfold Obligations.UndefinedEntry
  intro idx sub s hrow
  refine ⟨fun path value ha hup hs => exec_dictWrite_undefined hrow ha hup hs value, fun wseq hfree => ⟨fun hs => ⟨?_, ?_⟩, ?_⟩, ?_⟩
  · intro length offset
    exact submit_answers hfree (winReadRun_undefined hrow hs length offset wseq)
  · obtain ⟨t, ht, hshows, -⟩ := submit_answers hfree (winDescribeRun_undefined hrow hs wseq)
    exact ⟨t, ht, hshows⟩
  · intro hs offset total data
    exact submit_answers hfree (winWriteRun_undefined hrow hs offset total data wseq)
  · rintro f rfl rfl
    have hheard := (heard_onlyManaged s f).serves_eq .dmp
    refine ⟨fun hs p hp hfresh => ?_, fun hs p hp hfresh => ?_⟩
    · have htype : p.2 ∈ [0x01, 0x06, 0x05] := List.mem_map_of_mem (f := Prod.snd) hp
      exact exec_dmpCommand_abort (readCommands_subset f hp) hfresh (executeFrame_undefined_read hrow ((hheard _ _ _).trans hs) htype)
    · have htype : p.2 ∈ [0x02, 0x03, 0x04] := List.mem_map_of_mem (f := Prod.snd) hp
      exact exec_dmpCommand_abort (writeCommands_subset f hp) hfresh (executeFrame_undefined_write hrow ((hheard _ _ _).trans hs) htype)

end Sys2Proof.Machine
end

section
/-! SUPPORT. The lines of a yard slot: what reading and writing them can change in memory, and that a line written into a structure reads back
(R381-R386, R414). -/
namespace Sys2Proof.Machine

/-! The lengths of lines. -/

theorem fixBytes_length (f : Fixes) (l : List Byte) : (fixBytes f l).length = l.length := by
  unfold fixBytes
  induction f generalizing l with
  | nil => rfl
  | cons e t ih => rw [List.foldl_cons, ih]; split_ifs <;> simp

theorem lineAfter_length (bytes : List Byte) (m : Word32) : (lineAfter bytes m).1.length = bytes.length := by
  unfold lineAfter; split <;> simp [fixBytes_length]

@[simp] theorem peekLine_bytes_length (m : Memory) (a : Nat) : (peekLine m a).bytes.length = 64 := by
  simp [peekLine, lineAfter_length, rawLine]

@[simp] theorem readLine_snd (s : State) (a : Nat) (keepBad : Bool) : (readLine s a keepBad).2 = peekLine s.mem a := by
  unfold readLine; dsimp only; split <;> rfl

theorem readLines_bytes_length (s : State) (base : Nat) (keepBad : Bool) (js : List Nat) :
    ∀ g ∈ (readLines s base keepBad js).2, g.bytes.length = 64 := by
  induction js generalizing s with
  | nil => simp [readLines]
  | cons j t ih =>
    intro g hg
    rcases List.mem_cons.1 hg with rfl | hg
    · simp
    · exact ih _ g hg

@[simp] theorem bytesAt_length (l : List Byte) (o n : Nat) : (bytesAt l o n).length = n := by
  simp [bytesAt]

theorem bytesPut_length {l r : List Byte} {o : Nat} (h : o + r.length ≤ l.length) : (bytesPut l o r).length = l.length := by
  simp [bytesPut]; omega

/-- Bytes put over a whole string replace it. -/
theorem bytesPut_whole {l r : List Byte} (h : l.length = r.length) : bytesPut l 0 r = r := by simp [bytesPut, h]

theorem metaBytes_length (m : TileMeta) : (metaBytes m).length = 16 := rfl

/-- A line stored reads back whole. -/
theorem readBytes_putLine (m : Memory) (a : Nat) (l : Line) : readBytes (putLine m a l) a l.bytes.length = l.bytes :=
  List.ext_getElem (by simp [readBytes]) fun i _ hi => by simp [readBytes, readByte_putLine_in m a l i hi]

theorem readBytes_congr {m m' : Memory} {a n : Nat} (h : ∀ i, i < n → readByte m' (a + i) = readByte m (a + i)) :
    readBytes m' a n = readBytes m a n :=
  List.map_congr_left fun i hi => h i (List.mem_range.1 hi)

/-! Changes of memory in given lines. -/

/-- From `s` to `t` no line of memory but those listed is rewritten, and the flip mask stands as it stood (R414). -/
structure Rewrites (lines : List Nat) (s t : State) : Prop where
  stand : LinesStand s t lines
  flip : reg t K.FLIP_STATE = reg s K.FLIP_STATE

section Yard
variable {lines : List Nat}

theorem Rewrites.refl (s : State) : Rewrites lines s s := ⟨fun _ _ => rfl, rfl⟩

theorem Rewrites.trans {s t u : State} (h : Rewrites lines s t) (g : Rewrites lines t u) : Rewrites lines s u :=
  ⟨fun a ha => (g.stand a ha).trans (h.stand a ha), g.flip.trans h.flip⟩

/-- What is rewritten in some lines is rewritten in any list that holds them. -/
theorem Rewrites.mono {some all : List Nat} (hsub : some ⊆ all) {s t : State} (h : Rewrites some s t) : Rewrites all s t :=
  ⟨fun a ha => h.stand a fun l hl => ha l (hsub hl), h.flip⟩

theorem Rewrites.setReg (s : State) {k : Nat} (v : Nat) (h : K.FLIP_STATE ≠ k) : Rewrites lines s (setReg s k v) :=
  ⟨fun _ _ => rfl, reg_setReg_other s v h⟩

theorem Rewrites.bump (s : State) {k : Nat} (n : Nat) (h : K.FLIP_STATE ≠ k) : Rewrites lines s (bump s k n) := by
  unfold Machine.bump; split_ifs
  · exact .refl s
  · exact .setReg s _ h
  · exact .setReg s _ h

theorem Rewrites.raise (s : State) (code station unit : Nat) (part : Option Nat) (tree : Bool) (detail : Nat) :
    Rewrites lines s (raise s code station unit part tree detail) := by
  have safety : ∀ (u : State) (f : Safety), Rewrites lines u { u with safety := f } := fun _ _ => ⟨fun _ _ => rfl, rfl⟩
  have ring : ∀ (u : State) (w : Nat), Rewrites lines u (ringPut u w) := by
    intro u w
    unfold ringPut; split_ifs
    · exact .bump u 1 (by decide)
    · exact (safety u _).trans (.setReg _ _ (by decide))
  unfold Machine.raise
  dsimp only
  split_ifs
  · exact .refl s
  all_goals exact ((safety s _).trans (.setReg _ _ (by decide))).trans (ring _ _)

theorem Rewrites.crcMismatch (s : State) (i : Ident) (part : Option Nat) : Rewrites lines s (crcMismatch s i part) :=
  (Rewrites.bump s 1 (by decide)).trans (.raise _ _ _ _ _ _ _)

/-- The counts of a read of a yard line rewrite nothing. -/
theorem Rewrites.countFound (s : State) {a : Nat} (ha : a < stackBase) (f : Found) : Rewrites lines s (countFound s a f) := by
  have life : ∀ i, K.FLIP_STATE ≠ ltKey i → Rewrites lines s (lifeBump s (ltKey i) 1) := fun i hi => .setReg s _ hi
  have bin : ∀ (u : State) (b : Nat), Rewrites lines u (binBump u 9 b) := fun _ _ => ⟨fun _ _ => rfl, rfl⟩
  cases f with
  | clean => exact .refl s
  | corrected n =>
    simp only [Machine.countFound, if_pos ha]
    refine (life 8 (by decide)).trans ?_
    split_ifs
    · exact (Rewrites.bump _ 1 (by decide)).trans (bin _ _)
    · exact (Rewrites.bump _ 1 (by decide)).trans (bin _ _)
    · exact bin _ _
    · exact bin _ _
  | poisoned => simp only [Machine.countFound, if_pos ha]; exact .bump s 1 (by decide)
  | uncorrectable =>
    simp only [Machine.countFound, if_pos ha]
    exact ((life 9 (by decide)).trans (.bump _ 1 (by decide))).trans (.raise _ _ _ _ _ _ _)

/-- A fold of steps that rewrite the listed lines alone rewrites them alone. -/
theorem Rewrites.foldl {α : Type} {f : State → α → State} {l : List α} (hf : ∀ s, ∀ a ∈ l, Rewrites lines s (f s a)) (s : State) :
    Rewrites lines s (l.foldl f s) := by
  induction l generalizing s with
  | nil => exact .refl s
  | cons a t ih => exact (hf s a (by simp)).trans (ih (fun u b hb => hf u b (by simp [hb])) _)

variable (hyard : ∀ a ∈ lines, a % 64 = 0 ∧ a < stackBase)
include hyard

theorem Rewrites.storeLine (s : State) {a : Nat} (ha : a ∈ lines) {l : Line} (hl : l.bytes.length = 64) : Rewrites lines s (storeLine s a l) := by
  refine ⟨fun b hb => readByte_putLine_out _ _ _ _ ?_, rfl⟩
  have h64 := (hyard a ha).1
  have hne := hb a ha
  omega

/-- Where the mask is not armed a yard line is stored as it comes. -/
theorem Rewrites.writeYardLine {s : State} (hflip : reg s K.FLIP_STATE ≠ 1) {a : Nat} (ha : a ∈ lines) {l : Line} (hl : l.bytes.length = 64) :
    Rewrites lines s (writeYardLine s a l) := by
  simp only [Machine.writeYardLine, flipsBank, hflip, decide_false, Bool.false_and, Bool.false_eq_true, if_false]
  exact .storeLine hyard s ha hl

theorem Rewrites.readLine (s : State) {a : Nat} (ha : a ∈ lines) (keepBad : Bool) : Rewrites lines s (readLine s a keepBad).1 := by
  have h : Rewrites lines s (Machine.countFound s a (peekLine s.mem a).found) := .countFound s (hyard a ha).2 _
  unfold Machine.readLine
  dsimp only
  split
  · exact h
  all_goals
    split_ifs
    · exact h
    · exact h.trans (.storeLine hyard _ ha (peekLine_bytes_length _ _))

section Tile
variable {base : Nat} (hbase : ∀ j < 64, base + 64 * j ∈ lines)
include hbase

theorem Rewrites.readLines (s : State) (keepBad : Bool) {js : List Nat} (hjs : ∀ j ∈ js, j < 64) :
    Rewrites lines s (readLines s base keepBad js).1 := by
  induction js generalizing s with
  | nil => exact .refl s
  | cons j t ih =>
    exact (Rewrites.readLine hyard s (hbase j (hjs j (by simp))) keepBad).trans (ih _ fun i hi => hjs i (by simp [hi]))

/-- The judgement of a tile writes lines of it back poisoned, as they were read. -/
theorem Rewrites.judgeTile (s : State) (info : TileMeta) (m : GotLine) {ls : List GotLine} (hls : ∀ g ∈ ls, g.bytes.length = 64) (i : Ident)
    (part : Option Nat) : Rewrites lines s (judgeTile s base info m ls i part).1 := by
  have store : ∀ (u : State) {j : Nat} {g : GotLine}, j < 64 → ls[j]? = some g →
      Rewrites lines u (Machine.storeLine u (base + 64 * j) { bytes := g.bytes, mark := poisonMark }) :=
    fun u _ g hj hg => .storeLine hyard u (hbase _ hj) (hls g (List.mem_of_getElem? hg))
  have whole : ∀ u : State, Rewrites lines u (poisonStored u base ls) := by
    refine fun u => .foldl (fun v j hj => ?_) u
    split
    · exact store v (List.mem_range.1 hj) ‹_›
    · exact .refl v
  unfold Machine.judgeTile
  dsimp only
  generalize (if m.poison then BitVec.allOnes 64 else _) = poison
  split_ifs
  · exact .bump s _ (by decide)
  · exact .refl s
  · exact ((Rewrites.bump s _ (by decide)).trans (whole _)).trans (.crcMismatch _ _ _)
  · exact .refl s
  all_goals
    refine (Rewrites.bump s (k := K.CORR2_VERIFY_FAIL) _ (by decide)).trans (.foldl (fun v j hj => ?_) _)
    split
    · exact store v (List.mem_range.1 (List.mem_of_mem_filter hj)) ‹_›
    · exact .refl v

theorem Rewrites.readTileAt (s : State) {ma : Nat} (hma : ma ∈ lines) (off : Nat) (i : Ident) (part : Option Nat) :
    Rewrites lines s (readTileAt s base ma off false i part).1 := by
  simp only [Machine.readTileAt, Bool.false_eq_true, if_false]
  have hread := (Rewrites.readLine hyard s hma false).trans (.readLines hyard hbase _ false (js := List.range 64) fun _ hj => List.mem_range.1 hj)
  exact hread.trans (.judgeTile hyard hbase _ _ _ (readLines_bytes_length _ _ _ _) i part)

end Tile

end Yard

/-! The lines of a slot below the yard's metadata (R67). -/

theorem yardAddr_mem (slot : Nat) {j : Nat} (hj : j < 64) : yardAddr slot j ∈ yardLines slot :=
  List.mem_cons_of_mem _ (List.mem_map_of_mem (List.mem_range.2 hj))

theorem yardMetaAddr_mem (slot : Nat) : yardMetaAddr slot ∈ yardLines slot := List.mem_cons_self

theorem yardLines_aligned {slot : Nat} (hk : slot < 522240) : ∀ a ∈ yardLines slot, a % 64 = 0 ∧ a < stackBase := by
  simp only [yardLines, List.mem_cons, List.mem_map, List.mem_range, stackBase, yardMetaAddr, yardAddr]
  rintro a (rfl | ⟨j, hj, rfl⟩) <;> omega

/-- The line of a slot's metadata is none of a slot's data. -/
theorem yardMetaAddr_far {slot : Nat} (hk : slot < 522240) {j : Nat} (hj : j < 64) {i : Nat} (hi : i < 64) :
    (yardAddr slot j + i) / 64 ≠ yardMetaAddr slot / 64 := by
  unfold yardAddr yardMetaAddr; omega

/-- The metadata of a slot fits in its line. -/
theorem yardMetaOff_le (slot : Nat) : yardMetaOff slot ≤ 48 := by unfold yardMetaOff; omega

/-- The metadata of a slot made anew over the line that holds it: the last act of a write into a structure. -/
def writeYardMeta (s : State) (slot : Nat) (info : TileMeta) : State :=
  writeYardLine (readLine s (yardMetaAddr slot) false).1 (yardMetaAddr slot)
    { bytes := bytesPut (readLine s (yardMetaAddr slot) false).2.bytes (yardMetaOff slot) (metaBytes info), mark := 0 }

theorem Rewrites.writeYardMeta {slot : Nat} (hk : slot < 522240) {s : State} (hflip : reg s K.FLIP_STATE ≠ 1) (info : TileMeta) :
    Rewrites [yardMetaAddr slot] s (writeYardMeta s slot info) := by
  have hyard : ∀ a ∈ [yardMetaAddr slot], a % 64 = 0 ∧ a < stackBase := fun a ha =>
    yardLines_aligned hk a (List.mem_singleton.1 ha ▸ yardMetaAddr_mem slot)
  have hma : yardMetaAddr slot ∈ [yardMetaAddr slot] := List.mem_singleton_self _
  have back : Rewrites [yardMetaAddr slot] s (Machine.readLine s (yardMetaAddr slot) false).1 := .readLine hyard s hma false
  have hlen : (bytesPut (Machine.readLine s (yardMetaAddr slot) false).2.bytes (yardMetaOff slot) (metaBytes info)).length = 64 := by
    rw [bytesPut_length] <;> simp [metaBytes_length, yardMetaOff_le]
  exact back.trans (.writeYardLine hyard (back.flip ▸ hflip) hma hlen)

section Struct
variable {s : State} {q first o slot : Nat} (hslot : slotOf s q (first + o / 4096) = some slot) (hk : slot < 522240)
include hslot hk

theorem Rewrites.structTouch : Rewrites (yardLines slot) s (structTouch s q first o) := by
  have hbase : ∀ j < 64, yardAddr slot 0 + 64 * j ∈ yardLines slot := fun j hj => by
    rw [show yardAddr slot 0 + 64 * j = yardAddr slot j by unfold yardAddr; omega]
    exact yardAddr_mem slot hj
  simp only [Machine.structTouch, hslot]
  split_ifs
  · exact .readTileAt (yardLines_aligned hk) hbase s (yardMetaAddr_mem slot) _ _ _
  · exact .readLine (yardLines_aligned hk) s (yardAddr_mem slot (by omega)) false

/-- Where the mask is not armed a whole line written into a structure is stored as it comes, and then the metadata of its slot. -/
theorem structWrite_stored (hflip : reg s K.FLIP_STATE ≠ 1) {b : List Byte} (hb : b.length = 64) (ho : o % 64 = 0) :
    ∃ info, structWrite s q first o b =
      writeYardMeta (storeLine (structTouch s q first o) (yardAddr slot (o % 4096 / 64)) { bytes := b, mark := 0 }) slot info := by
  have hfu : reg (structTouch s q first o) K.FLIP_STATE ≠ 1 := (Rewrites.structTouch hslot hk).flip ▸ hflip
  have hput : ∀ a, writeYardLine (structTouch s q first o) a (carried (bytesPut (peekLine (structTouch s q first o).mem a).bytes (o % 64) b)
      ((peekLine (structTouch s q first o).mem a).poison && decide (b.length < 64))) =
      storeLine (structTouch s q first o) a { bytes := b, mark := 0 } := fun a => by
    simp [writeYardLine, flipsBank, hfu, carried, hb, ho, bytesPut_whole]
  simp only [structWrite, hslot, hput]
  exact ⟨_, rfl⟩

/-- It reads back, and no line of memory changes but those of the slot (R385). -/
theorem structWrite_line (hflip : reg s K.FLIP_STATE ≠ 1) {b : List Byte} (hb : b.length = 64) (ho : o % 64 = 0) :
    readBytes (structWrite s q first o b).mem (yardAddr slot (o % 4096 / 64)) 64 = b ∧ LinesStand s (structWrite s q first o b) (yardLines slot) := by
  have hj : o % 4096 / 64 < 64 := by omega
  obtain ⟨info, hw⟩ := structWrite_stored hslot hk hflip hb ho
  have touch : Rewrites (yardLines slot) s (structTouch s q first o) := .structTouch hslot hk
  have store := touch.trans (.storeLine (yardLines_aligned hk) _ (yardAddr_mem slot hj) (l := { bytes := b, mark := 0 }) hb)
  have last := Rewrites.writeYardMeta hk (store.flip ▸ hflip) info
  rw [hw]
  refine ⟨?_, (store.trans (last.mono (by simp [yardMetaAddr_mem]))).stand⟩
  calc readBytes _ (yardAddr slot (o % 4096 / 64)) 64
      = readBytes (storeLine (structTouch s q first o) (yardAddr slot (o % 4096 / 64)) { bytes := b, mark := 0 }).mem
          (yardAddr slot (o % 4096 / 64)) 64 :=
        readBytes_congr fun i hi => last.stand _ (by simpa using yardMetaAddr_far hk hj hi)
    _ = b := hb ▸ readBytes_putLine (structTouch s q first o).mem _ { bytes := b, mark := 0 }

end Struct

end Sys2Proof.Machine
end

section
/-! SUPPORT. The descriptor queues (R48-R52, R360, R482): what a command of the queue channel can change, and what a write of Q_STATE can. -/
namespace Sys2Proof.Machine

/-! Changes of registers alone, and of storage, beside a field that neither touches. -/

theorem RegsOnly.setReg (s : State) {k : Nat} (v : Nat) {ks : List Nat} (h : k ∈ ks) : RegsOnly s (setReg s k v) ks :=
  ⟨rfl, fun _ hi => reg_setReg_other s v fun e => hi (e ▸ h)⟩

theorem RegsOnly.bump (s : State) {k : Nat} (n : Nat) {ks : List Nat} (h : k ∈ ks) : RegsOnly s (bump s k n) ks := by
  obtain ⟨r, hr⟩ := bump_frame s k n
  exact ⟨by rw [hr], fun _ hi => reg_bump_other s n fun e => hi (e ▸ h)⟩

theorem RegsOnly.trans {s t u : State} {ks : List Nat} (h : RegsOnly s t ks) (g : RegsOnly t u ks) : RegsOnly s u ks := by
  obtain ⟨hframe, hreg⟩ := h
  obtain ⟨gframe, greg⟩ := g
  exact ⟨by rw [gframe, hframe], fun k hk => (greg k hk).trans (hreg k hk)⟩

/-- Writing several registers changes those alone. -/
theorem RegsOnly.setRegs (s : State) {l : List (Nat × Nat)} {ks : List Nat} (h : ∀ e ∈ l, e.1 ∈ ks) : RegsOnly s (setRegs s l) ks := by
  induction l generalizing s with
  | nil => exact ⟨rfl, fun _ _ => rfl⟩
  | cons e t ih => exact (RegsOnly.setReg s e.2 (h e (by simp))).trans (ih _ fun d hd => h d (by simp [hd]))

theorem RegsOnly.chan {s t : State} {ks : List Nat} (h : RegsOnly s t ks) (c : ChanAnswer) : RegsOnly { s with chan := c } { t with chan := c } ks :=
  ⟨by rw [h.1], h.2⟩

theorem RegsOnly.sdo {s t : State} {ks : List Nat} (h : RegsOnly s t ks) (e : Nat) : RegsOnly { s with sdo := e } { t with sdo := e } ks :=
  ⟨by rw [h.1], h.2⟩

theorem OnlyStorage.chan {s t : State} (h : OnlyStorage s t) (c : ChanAnswer) : OnlyStorage { s with chan := c } { t with chan := c } :=
  ⟨by rw [h.1], h.2⟩

/-- A counter counts (R398). -/
theorem counted_bump (s : State) (k n : Nat) : Counted s (bump s k n) k n := by
  intro hform
  unfold bump countSticky countMax
  split_ifs with hsat hfit <;> simp <;> omega

/-- A count depends on that counter alone. -/
theorem Counted.congr {s s' t : State} {k n : Nat} (h : reg s' k = reg s k) (c : Counted s' t k n) : Counted s t k n := by
  simpa only [Counted, h] using c

/-- Of several registers written, each once, every one reads as it was written. -/
theorem reg_setRegs_of_mem (s : State) {l : List (Nat × Nat)} (hkeys : (l.map Prod.fst).Nodup) {k v : Nat} (h : (k, v) ∈ l) :
    reg (setRegs s l) k = v := by
  induction l generalizing s with
  | nil => simp at h
  | cons e t ih =>
    obtain ⟨hnew, hrest⟩ := List.nodup_cons.1 hkeys
    rcases List.mem_cons.1 h with rfl | h
    · exact ((RegsOnly.setRegs (setReg s k v) (ks := t.map Prod.fst) fun d hd => List.mem_map_of_mem hd).2 k hnew).trans (reg_setReg_self s k v)
    · exact ih (setReg s e.1 e.2) hrest h

/-! A command of the queue channel (R360, R482). -/

section Channel
variable {s : State} (halive : alive s = true)
include halive

theorem onChannel_closed (hep : epOpen s = false) (f : State → State) : onChannel s f = .next { s with chan := .none } := by
  simp [onChannel, whenAlive_on halive, hep, keep_eq]

/-- While EP is out of reset the command's own effect is kept, where it leaves the queue of commands and the pins alone. -/
theorem onChannel_open (hep : epOpen s = true) {f : State → State} {t : State} (hf : f s = t) (hpending : t.pending = s.pending)
    (hpins : t.pins = s.pins) : onChannel s f = .next t := by
  rw [onChannel, whenAlive_on halive, if_pos hep, hf, keep_eq hpending hpins]

end Channel

/-- Keeping the head that was read ahead changes the heads alone (R367). -/
theorem keepHead_frame (s : State) (q pos : Nat) : ∃ h, keepHead s q pos = { s with tracker := { s.tracker with heads := h } } := by
  unfold keepHead
  split_ifs
  · split
    · exact ⟨_, rfl⟩
    · exact ⟨_, rfl⟩
  · exact ⟨_, rfl⟩

/-- Noting a ring's write changes the pacing alone (R353). -/
theorem noteRung_frame (s : State) (q v : Nat) : ∃ p, noteRung s q v = { s with pace := p } := by
  unfold noteRung; split_ifs
  · exact ⟨_, rfl⟩
  · exact ⟨_, rfl⟩

/-- The entries of one queue differ by their subindex. -/
theorem reg_setReg_queue (s : State) (q : Nat) {i j : Nat} (v : Nat) (h : j ≠ i) :
    reg (setReg s ((0x2010 + q) * 256 + i) v) ((0x2010 + q) * 256 + j) = reg s ((0x2010 + q) * 256 + j) :=
  reg_setReg_other s v (by omega)

/-- A producer's write changes DQ_PRODUCER, beside the pacing; one that runs over the ring stops the queue in state 2 and counts, and the head read
ahead is forgotten (R51). -/
theorem indexWrite_producer (s : State) (q v : Nat) (hq : q < 64) :
    ∃ u p h, indexWrite s q false v = u ∧
      RegsOnly { s with pace := p, tracker := { s.tracker with heads := h } } u [K.DQ_PRODUCER q, K.Q_STATE q, K.DQ_OVERRUN] ∧
      reg u (K.DQ_PRODUCER q) = v % 2 ^ 32 ∧
      (if reg s (K.DQ_SIZE q) < (v % 2 ^ 32 + 2 ^ 32 - reg s (K.DQ_CONSUMER q)) % 2 ^ 32
        then reg u (K.Q_STATE q) = 2 ∧ Counted s u K.DQ_OVERRUN 1
        else reg u (K.Q_STATE q) = reg s (K.Q_STATE q) ∧ reg u K.DQ_OVERRUN = reg s K.DQ_OVERRUN) := by
  have hcount : ∀ i, i < 256 → (0x2010 + q) * 256 + i ≠ K.DQ_OVERRUN := fun i hi => by show _ ≠ 7340041; omega
  simp only [indexWrite, Bool.false_eq_true, if_false]
  generalize v % 2 ^ 32 = w
  obtain ⟨p, hrung⟩ := noteRung_frame (setReg s (K.DQ_PRODUCER q) w) q w
  have hread : ∀ i, i ≠ 3 → reg (noteRung (setReg s (K.DQ_PRODUCER q) w) q w) ((0x2010 + q) * 256 + i) = reg s ((0x2010 + q) * 256 + i) :=
    fun i hi => hrung ▸ reg_setReg_queue s q w hi
  rw [hread 2 (by decide), hread 4 (by decide), hrung]
  split_ifs with hover
  · refine ⟨_, p, smapErase s.tracker.heads q, rfl, ?_, ?_, ?_, ?_⟩
    · exact ((RegsOnly.setReg _ w (by simp)).trans (.setReg _ 2 (by simp))).trans (.bump _ 1 (by simp))
    · exact (reg_bump_other _ 1 (hcount 3 (by decide))).trans ((reg_setReg_queue _ q 2 (by decide)).trans (reg_setReg_self s _ w))
    · exact (reg_bump_other _ 1 (hcount 9 (by decide))).trans (reg_setReg_self _ _ 2)
    · refine Counted.congr ?_ (counted_bump _ K.DQ_OVERRUN 1)
      exact (reg_setReg_other _ 2 (hcount 9 (by decide)).symm).trans (reg_setReg_other s w (hcount 3 (by decide)).symm)
  · refine ⟨_, p, s.tracker.heads, rfl, ?_, ?_, ?_, ?_⟩
    · exact .setReg _ w (by simp)
    · exact reg_setReg_self s _ w
    · exact reg_setReg_queue s q w (by decide)
    · exact reg_setReg_other s w (hcount 3 (by decide)).symm

theorem exec_writeDesc (q pos : Nat) (line : List Byte) (s : State) : exec (.writeDesc q pos line) s = execWriteDesc q pos line s := rfl
theorem exec_readCompl (q pos : Nat) (s : State) : exec (.readCompl q pos) s = execReadCompl q pos s := rfl
theorem exec_writeIndex (q : Nat) (consumer : Bool) (v : Nat) (s : State) : exec (.writeIndex q consumer v) s = execWriteIndex q consumer v s := rfl

section Commands
variable {s : State} {q : Nat} (halive : alive s = true) (hep : epOpen s = true)
include halive hep

/-- A descriptor taken is written at its place in the ring, over a head that was kept as it was read ahead (R367). -/
theorem exec_writeDesc_taken {pos p slot : Nat} (line : List Byte) (hp : pos % max 1 (reg s (K.DQ_SIZE q)) = p) (hwork : working s = true)
    (hstate : reg s (K.Q_STATE q) ≠ 0) (hslot : slotOf s (qPart q) (reg s (K.DQ_BASE q) % 2 ^ 48 + p / 64) = some slot) :
    ∃ h u, structWrite { s with tracker := { s.tracker with heads := h } } (qPart q) (reg s (K.DQ_BASE q) % 2 ^ 48) (p * 64)
        (bytesAt line 0 64) = u ∧
      exec (.writeDesc q pos line) s = .next { u with chan := .ok } := by
  obtain ⟨h, hkept⟩ := keepHead_frame s q p
  have only := OnlyStorage.structWrite (keepHead s q p) (qPart q) (reg s (K.DQ_BASE q) % 2 ^ 48) (p * 64) (bytesAt line 0 64)
  refine ⟨h, structWrite (keepHead s q p) (qPart q) (reg s (K.DQ_BASE q) % 2 ^ 48) (p * 64) (bytesAt line 0 64), by rw [hkept], ?_⟩
  rw [exec_writeDesc, execWriteDesc]
  refine onChannel_open halive hep ?_ ?_ ?_
  · simp [hp, hwork, hstate, hslot, -Nat.reducePow]
  · rw [only.1, hkept]
  · rw [only.1, hkept]

theorem exec_writeDesc_stored {pos slot : Nat} (line : List Byte) (hwork : working s = true) (hstate : reg s (K.Q_STATE q) ≠ 0) (hk : slot < 522240)
    (hflip : reg s K.FLIP_STATE ≠ 1)
    (hslot : slotOf s (qPart q) (reg s (K.DQ_BASE q) % 2 ^ 48 + pos % max 1 (reg s (K.DQ_SIZE q)) / 64) = some slot) :
    ∃ t, exec (.writeDesc q pos line) s = .next t ∧ t.chan = .ok ∧
      readBytes t.mem (yardAddr slot (pos % max 1 (reg s (K.DQ_SIZE q)) % 64)) 64 = bytesAt line 0 64 ∧
      LinesStand s t (yardLines slot) ∧
      OnlyStorage { s with chan := .ok, tracker := { s.tracker with heads := t.tracker.heads } } t := by
  obtain ⟨h, u, hu, hexec⟩ := exec_writeDesc_taken halive hep line rfl hwork hstate hslot
  generalize pos % max 1 (reg s (K.DQ_SIZE q)) = p at hslot hu ⊢
  have hplace : slotOf s (qPart q) (reg s (K.DQ_BASE q) % 2 ^ 48 + p * 64 / 4096) = some slot := by rwa [show p * 64 / 4096 = p / 64 by omega]
  have only := OnlyStorage.structWrite { s with tracker := { s.tracker with heads := h } } (qPart q) (reg s (K.DQ_BASE q) % 2 ^ 48) (p * 64)
    (bytesAt line 0 64)
  obtain ⟨hread, hstand⟩ := structWrite_line (s := { s with tracker := { s.tracker with heads := h } }) hplace hk hflip
    (bytesAt_length line 0 64) (by omega)
  rw [hu] at only hread hstand
  refine ⟨_, hexec, rfl, ?_, hstand, ⟨by rw [only.1], only.2⟩⟩
  rwa [show p % 64 = p * 64 % 4096 / 64 by omega]

theorem exec_writeDesc_refused {pos : Nat} (line : List Byte) (h : working s = false ∨ reg s (K.Q_STATE q) = 0 ∨
      slotOf s (qPart q) (reg s (K.DQ_BASE q) % 2 ^ 48 + pos % max 1 (reg s (K.DQ_SIZE q)) / 64) = none) :
    exec (.writeDesc q pos line) s = .next { s with chan := .error } := by
  rw [exec_writeDesc, execWriteDesc]
  refine onChannel_open halive hep ?_ rfl rfl
  rcases h with h | h | h <;> simp [h, -Nat.reducePow]

/-- A completion read of a position of the ring has the effects of the line's read, and answers with the record where the line gives one. -/
theorem exec_readCompl_within {pos : Nat} (hpos : pos < reg s (K.CQ_SIZE q)) :
    ∃ u, OnlyStorage s u ∧ exec (.readCompl q pos) s = .next { u with chan :=
      (structBytes s (qPart q) (reg s (K.CQ_BASE q) % 2 ^ 48) (pos * 16) 16).elim .error .record } := by
  have only : OnlyStorage s (if working s then structTouch s (qPart q) (reg s (K.CQ_BASE q) % 2 ^ 48) (pos * 16) else s) := by
    split_ifs
    · exact .structTouch s _ _ _
    · exact .refl s
  refine ⟨_, only, ?_⟩
  rw [exec_readCompl, execReadCompl]
  refine onChannel_open halive hep ?_ ?_ ?_
  · simp only [if_neg (Nat.not_le.2 hpos)]
    cases structBytes s (qPart q) (reg s (K.CQ_BASE q) % 2 ^ 48) (pos * 16) 16 <;> rfl
  · rw [only.1]
  · rw [only.1]

theorem exec_readCompl_past {pos : Nat} (hpos : reg s (K.CQ_SIZE q) ≤ pos) : exec (.readCompl q pos) s = .next { s with chan := .error } := by
  rw [exec_readCompl, execReadCompl]
  exact onChannel_open halive hep (by simp [hpos]) rfl rfl

theorem exec_writeIndex_consumer (hwork : working s = true) (v : Nat) :
    exec (.writeIndex q true v) s = .next { setReg s (K.CQ_CONSUMER q) (v % 2 ^ 32) with chan := .ok } := by
  rw [exec_writeIndex, execWriteIndex]
  exact onChannel_open halive hep (by simp [hwork, indexWrite]) rfl rfl

theorem exec_writeIndex_producer (hwork : working s = true) (hq : q < 64) (v : Nat) :
    ∃ t, exec (.writeIndex q false v) s = .next t ∧ t.chan = .ok ∧ reg t (K.DQ_PRODUCER q) = v % 2 ^ 32 ∧
      RegsOnly { s with chan := .ok, pace := t.pace, tracker := { s.tracker with heads := t.tracker.heads } } t
        [K.DQ_PRODUCER q, K.Q_STATE q, K.DQ_OVERRUN] ∧
      (if reg s (K.DQ_SIZE q) < (v % 2 ^ 32 + 2 ^ 32 - reg s (K.DQ_CONSUMER q)) % 2 ^ 32
        then reg t (K.Q_STATE q) = 2 ∧ Counted s t K.DQ_OVERRUN 1
        else reg t (K.Q_STATE q) = reg s (K.Q_STATE q) ∧ reg t K.DQ_OVERRUN = reg s K.DQ_OVERRUN) := by
  obtain ⟨u, p, h, hu, only, hproducer, hover⟩ := indexWrite_producer s q v hq
  have hexec : exec (.writeIndex q false v) s = .next { u with chan := .ok } := by
    rw [exec_writeIndex, execWriteIndex]
    exact onChannel_open halive hep (by simp [hwork, hu]) (by rw [only.1]) (by rw [only.1])
  exact ⟨_, hexec, rfl, hproducer, ⟨by rw [only.1], only.2⟩, hover⟩

end Commands

/-! A write of Q_STATE (R49, R50). -/

/-- Q_STATE is an entry of a fixed size at every queue. -/
theorem dictRow_qState : ∀ q < 64, (dictRow (0x2010 + q) 9).map (fun r => fixedType r.ty) = some true := by decide +kernel

/-- A write of Q_STATE that nothing bars is the queue's own. -/
theorem dictWrite_qState {s : State} {path : Path} {q : Nat} (hq : q < 64) (hw : Writable s path (0x2010 + q) 9 1) {b : List Byte}
    (hb : b.length = 1) : dictWrite s path (0x2010 + q) 9 b = qStateWrite s q (numberIn path b) := by
  obtain ⟨-, -, hgate, hwork⟩ := hw
  obtain ⟨r, hrow, hfixed⟩ := Option.map_eq_some_iff.1 (dictRow_qState q hq)
  have hrange : 0x2010 ≤ 0x2010 + q ∧ 0x2010 + q < 0x2050 := by omega
  have hstation : stationWrite (0x2010 + q) 9 = true := by simp [stationWrite, hrange]
  obtain ⟨hstage, hsafe⟩ := hwork hstation
  simp [dictWrite, hb, hgate, hrow, hfixed, hstage, hsafe, writeNumber, hrange, queueWrite]

/-- The state in which a write of Q_STATE leaves the block has the queue of commands and the pins as they were. -/
theorem qStateWrite_frame (s : State) (q v : Nat) : (qStateWrite s q v).1.pending = s.pending ∧ (qStateWrite s q v).1.pins = s.pins := by
  unfold qStateWrite
  dsimp only
  split_ifs <;> exact ⟨rfl, rfl⟩

/-- The effect of a write of Q_STATE, with its outcome as the answer. -/
def qStateAnswered (s : State) (q v : Nat) : State := { (qStateWrite s q v).1 with sdo := (qStateWrite s q v).2 }

theorem writeNum_qState {s : State} {path : Path} {q v : Nat} (hq : q < 64) (hw : Writable s path (0x2010 + q) 9 1) (hv : v < 256) :
    whenAlive s (writeNum s path (0x2010 + q) 9 1 v) = .next (qStateAnswered s q v) := by
  have hlen : (numberBytes path 1 v).length = 1 := by cases path <;> rfl
  have hval : numberIn path (numberBytes path 1 v) = v := by
    cases path <;> simp [numberIn, numberBytes, beNat, natBe, natLe, leNat] <;> omega
  obtain ⟨hpending, hpins⟩ := qStateWrite_frame s q v
  have heff : writeNum s path (0x2010 + q) 9 1 v = qStateAnswered s q v := by
    simp [writeNum, writeBy, hw.2.1, dictWrite_qState hq hw hlen, hval, qStateAnswered]
  rw [heff, whenAlive_on hw.1, keep_eq (t := qStateAnswered s q v) hpending hpins]

/-- The tiles of both rings of a queue are homed in the yard (R49). -/
def ringsHomed (s : State) (q : Nat) : Bool :=
  yardHomed s (qPart q) (reg s (K.DQ_BASE q) % 2 ^ 48) (ceilDiv (min (reg s (K.DQ_SIZE q)) 65536) 64) &&
    yardHomed s (qPart q) (reg s (K.CQ_BASE q) % 2 ^ 48) (ceilDiv (min (reg s (K.CQ_SIZE q)) 65536) 256)

/-- The sizes of both rings of a queue are powers of two within range (R49). -/
abbrev RingsSized (s : State) (q : Nat) : Prop :=
  isPow2 (reg s (K.DQ_SIZE q)) = true ∧ 64 ≤ reg s (K.DQ_SIZE q) ∧ reg s (K.DQ_SIZE q) ≤ 65536 ∧
    isPow2 (reg s (K.CQ_SIZE q)) = true ∧ 256 ≤ reg s (K.CQ_SIZE q) ∧ reg s (K.CQ_SIZE q) ≤ 65536

section Write
variable {s : State} {q : Nat}

/-- A write of 1: the state and the homes of the rings are looked at before their sizes. -/
theorem qStateWrite_one : qStateWrite s q 1 =
    if reg s (K.Q_STATE q) ≠ 0 ∨ ringsHomed s q = false then (s, 0x08000022)
    else if RingsSized s q then
      (setRegs (dropRung (dropHead s q) q)
        [(K.DQ_PRODUCER q, 0), (K.DQ_CONSUMER q, 0), (K.CQ_PRODUCER q, 0), (K.CQ_CONSUMER q, 0), (K.Q_STATE q, 1)], 0)
    else (s, 0x06090030) := by
  have hsizes : (isPow2 (reg s (K.DQ_SIZE q)) && decide (64 ≤ reg s (K.DQ_SIZE q) ∧ reg s (K.DQ_SIZE q) ≤ 65536) &&
      isPow2 (reg s (K.CQ_SIZE q)) && decide (256 ≤ reg s (K.CQ_SIZE q) ∧ reg s (K.CQ_SIZE q) ≤ 65536)) = decide (RingsSized s q) := by
    simp [RingsSized, Bool.and_assoc]
  unfold qStateWrite
  dsimp only
  rw [hsizes, ← ringsHomed]
  by_cases hstate : reg s (K.Q_STATE q) = 0
  · cases ringsHomed s q
    · simp [hstate]
    · by_cases hsized : RingsSized s q
      · rw [decide_eq_true hsized, if_pos hsized]; simp [hstate]
      · rw [decide_eq_false hsized, if_neg hsized]; simp [hstate]
  · simp [hstate]

/-- A write of 0 to a queue that is not off. -/
theorem qStateWrite_zero (hstate : reg s (K.Q_STATE q) ≠ 0) :
    qStateWrite s q 0 = (setReg (dropHead s q) (K.Q_STATE q) (if queueBusy s q then 3 else 0), 0) := by
  simp [qStateWrite, hstate]

end Write

section Enable
variable {s : State} {path : Path} {q : Nat} (hq : q < 64) (hw : Writable s path (0x2010 + q) 9 1)
include hq hw

theorem exec_qStateEnable : exec (.qStateEnable path q) s = .next (qStateAnswered s q 1) := writeNum_qState hq hw (by decide)

theorem exec_qStateDisable : exec (.qStateDisable path q) s = .next (qStateAnswered s q 0) := writeNum_qState hq hw (by decide)

theorem exec_qStateEnable_on (hstate : reg s (K.Q_STATE q) = 0) (hhomed : ringsHomed s q = true) (hsized : RingsSized s q) :
    ∃ t, exec (.qStateEnable path q) s = .next t ∧ t.sdo = 0 ∧ reg t (K.Q_STATE q) = 1 ∧
      (∀ k ∈ [K.DQ_PRODUCER q, K.DQ_CONSUMER q, K.CQ_PRODUCER q, K.CQ_CONSUMER q], reg t k = 0) ∧
      RegsOnly { s with sdo := 0, pace := t.pace, tracker := { s.tracker with heads := t.tracker.heads } } t
        [K.Q_STATE q, K.DQ_PRODUCER q, K.DQ_CONSUMER q, K.CQ_PRODUCER q, K.CQ_CONSUMER q] := by
  refine ⟨_, exec_qStateEnable hq hw, ?_⟩
  rw [qStateAnswered, qStateWrite_one, if_neg (by simp [hstate, hhomed]), if_pos hsized]
  have hread := fun k v => reg_setRegs_of_mem (k := k) (v := v) (dropRung (dropHead s q) q)
    (l := [(K.DQ_PRODUCER q, 0), (K.DQ_CONSUMER q, 0), (K.CQ_PRODUCER q, 0), (K.CQ_CONSUMER q, 0), (K.Q_STATE q, 1)]) (by simp)
  have only := RegsOnly.setRegs (dropRung (dropHead s q) q)
    (l := [(K.DQ_PRODUCER q, 0), (K.DQ_CONSUMER q, 0), (K.CQ_PRODUCER q, 0), (K.CQ_CONSUMER q, 0), (K.Q_STATE q, 1)])
    (ks := [K.Q_STATE q, K.DQ_PRODUCER q, K.DQ_CONSUMER q, K.CQ_PRODUCER q, K.CQ_CONSUMER q]) (by simp)
  generalize setRegs (dropRung (dropHead s q) q) _ = u at hread only
  refine ⟨rfl, hread _ 1 (by simp), fun k hk => hread k 0 ?_, ?_⟩
  · simp only [List.mem_cons, List.not_mem_nil, or_false] at hk
    rcases hk with rfl | rfl | rfl | rfl <;> simp
  · exact ⟨by rw [only.1]; rfl, only.2⟩

theorem exec_qStateEnable_refused (h : reg s (K.Q_STATE q) ≠ 0 ∨ ringsHomed s q = false) :
    exec (.qStateEnable path q) s = .next { s with sdo := 0x08000022 } := by
  rw [exec_qStateEnable hq hw, qStateAnswered, qStateWrite_one, if_pos h]

theorem exec_qStateEnable_unsized (hstate : reg s (K.Q_STATE q) = 0) (hhomed : ringsHomed s q = true) (hsized : ¬ RingsSized s q) :
    exec (.qStateEnable path q) s = .next { s with sdo := 0x06090030 } := by
  rw [exec_qStateEnable hq hw, qStateAnswered, qStateWrite_one, if_neg (by simp [hstate, hhomed]), if_neg hsized]

theorem exec_qStateDisable_stops (hstate : reg s (K.Q_STATE q) ≠ 0) :
    ∃ t, exec (.qStateDisable path q) s = .next t ∧ t.sdo = 0 ∧ reg t (K.Q_STATE q) = (if queueBusy s q then 3 else 0) ∧
      RegsOnly { s with sdo := 0, tracker := { s.tracker with heads := t.tracker.heads } } t [K.Q_STATE q] := by
  refine ⟨_, exec_qStateDisable hq hw, ?_⟩
  rw [qStateAnswered, qStateWrite_zero hstate]
  exact ⟨rfl, reg_setReg_self _ _ _, (RegsOnly.setReg _ _ (by simp)).sdo 0⟩

end Enable

/-- A queue whose last record is written has stopped (R50). -/
theorem exec_queueDrained {s : State} {q : Nat} (hwork : working s = true) (hstate : reg s (K.Q_STATE q) = 3) (hbusy : queueBusy s q = false) :
    exec (.queueDrained q) s = .next (setReg s (K.Q_STATE q) 0) := by
  show whenWorking s _ = _
  rw [whenWorking_on hwork, if_pos ⟨hstate, hbusy⟩, keep_eq (s := s) (t := setReg s (K.Q_STATE q) 0) rfl rfl]

/-- A queue that is not in state 1 has no head to pass or to take, and while EP is in reset none is looked at (R50, R360). -/
theorem exec_descriptorFetch_idle {s : State} {q : Nat} (h : reg s (K.Q_STATE q) ≠ 1 ∨ epOpen s = false) :
    exec (.descriptorFetch q) s = .next s := by
  have hpassed : reg s (K.Q_STATE q) ≠ 1 → ∀ fuel, passPoisoned q fuel s = s := by
    rintro hstate (_ | fuel)
    · rfl
    · simp [passPoisoned, hasHead, hstate]
  show execDescriptorFetch q s = _
  unfold execDescriptorFetch
  cases hwork : working s with
  | false => exact whenWorking_off hwork
  | true =>
    rw [whenWorking_on hwork]
    rcases h with hstate | hep
    · simp [hpassed hstate, headReady, hasHead, hstate, keep_eq]
    · simp [hep, keep_eq]

/-- Settles O11: each command by its own rule above. -/
theorem queuesSetAndRead : Obligations.QueuesSetAndRead := by
  unfold Obligations.QueuesSetAndRead
  refine ⟨fun q s hq halive => ⟨fun hep pos v line consumer c hc => ?_, fun hep => ⟨?_, ?_, ?_, ?_, ?_, ?_⟩⟩,
    fun q path s hq => ⟨?_, ?_, ?_, ?_, ?_, ?_⟩⟩
  · simp only [List.mem_cons, List.not_mem_nil, or_false] at hc
    rcases hc with rfl | rfl | rfl
    · rw [exec_writeDesc, execWriteDesc, onChannel_closed halive hep]
    · rw [exec_readCompl, execReadCompl, onChannel_closed halive hep]
    · rw [exec_writeIndex, execWriteIndex, onChannel_closed halive hep]
  · intro pos slot line hwork hstate hk hflip hslot
    exact exec_writeDesc_stored halive hep line hwork hstate hk hflip hslot
  · intro pos line h
    exact exec_writeDesc_refused halive hep line h
  · intro pos b hpos hb
    obtain ⟨u, only, hexec⟩ := exec_readCompl_within halive hep hpos
    rw [hb] at hexec
    exact ⟨_, hexec, rfl, only.chan _⟩
  · intro pos h
    by_cases hpast : reg s (K.CQ_SIZE q) ≤ pos
    · exact ⟨_, exec_readCompl_past halive hep hpast, rfl, .refl _⟩
    · obtain ⟨u, only, hexec⟩ := exec_readCompl_within halive hep (Nat.not_le.1 hpast)
      rw [h.resolve_left hpast] at hexec
      exact ⟨_, hexec, rfl, only.chan _⟩
  · intro v hwork
    exact ⟨_, exec_writeIndex_consumer halive hep hwork v, rfl, reg_setReg_self s _ _, (RegsOnly.setReg s _ (by simp)).chan _⟩
  · intro v hwork
    exact exec_writeIndex_producer halive hep hwork hq v
  · intro hw hstate hhomed hsized
    exact exec_qStateEnable_on hq hw hstate hhomed (of_decide_eq_true hsized)
  · intro hw h
    exact exec_qStateEnable_refused hq hw h
  · intro hw hstate hhomed hsized
    exact exec_qStateEnable_unsized hq hw hstate hhomed (of_decide_eq_false hsized)
  · intro hw hstate
    exact exec_qStateDisable_stops hq hw hstate
  · intro hwork hstate hbusy
    exact ⟨_, exec_queueDrained hwork hstate hbusy, reg_setReg_self s _ 0, .setReg s 0 (by simp)⟩
  · exact exec_descriptorFetch_idle

end Sys2Proof.Machine
end
